-- ==== Sys2Proof/Word.lean ====
section
/-! DEFINITION. The word types of the block (spec/00_scope.md section 5, R9; spec/30_encoding.md R54). -/

namespace Sys2Proof

/-- One register's value, or the data of a transaction (R9: 8-bit registers). -/
abbrev Byte := BitVec 8

/-- A register address `bus_addr[1:0]` (R39: 2 bits). -/
abbrev RegAddr := BitVec 2

/-- An index of a row or of a column, 0..3 (R4). -/
abbrev LineIdx := BitVec 2

/-- The four column lines, or the four row lines, one bit each (R19, R20). -/
abbrev Lines := BitVec 4

/-- A symbol code SYM (R59: 4 bits, and all 16 codes are symbols). -/
abbrev SymCode := BitVec 4

/-- A host transaction written as one word `T[10:0]` (R54). -/
abbrev Txn := BitVec 11

end Sys2Proof
end

