-- ==== Sys2Proof/Config.lean ====
section
/-! DEFINITION. What is fixed for one instance of the block (its parameters, spec/00_scope.md section 4) and the
free values, constants without a body. -/

namespace Sys2Proof

/-- R6: the flip-flop stages on each row input before it is sampled. -/
def syncStages : Nat := 2

/-- R10, `BUS_EMBEDDING`: how the four registers are placed on a wider host bus. OPEN, and no rule of the block reads it:
the block sees only the 2-bit address (log entry 13). -/
structure BusEmbedding where
  base : Nat
  stride : Nat
  byteLane : Nat
deriving DecidableEq, Repr, Inhabited

/-- The parameters of one instance of the block and of the board it stands on.
* `settleCycles`: R5, `SETTLE_CYCLES`.
* `keymap`: R7 and R26, `KEYMAP`, entry `4*row + col`.
* `tClk`: R8, `T_CLK`, in the time unit that `tSettle` is in too (log entry 12).
* `tSettle`: R140, `t_settle`, the board's worst-case time for a row line to become valid after a column changes. -/
structure Params where
  settleCycles : Nat
  keymap : Vector SymCode 16
  tClk : Nat
  tSettle : Nat
  embedding : BusEmbedding
deriving DecidableEq, Repr

/-- FREE VALUE. By how much `SETTLE_CYCLES` of the instance exceeds `SYNC_STAGES` (R5; log entry 2). -/
opaque Config.settleBeyondSync : Nat

/-- FREE VALUE. The instance's key map (R7: the model does not force even the two entries the source gives; log entry 2). -/
opaque Config.keymap : Vector SymCode 16

/-- FREE VALUE. The instance's clock period less one time unit (R8; log entries 2 and 12). -/
opaque Config.tClkLessOne : Nat

/-- FREE VALUE. The board's settling time less one time unit (R140; log entries 2 and 12). -/
opaque Config.tSettleLessOne : Nat

/-- FREE VALUE. The instance's placement on its host bus (R10; log entries 2 and 13). -/
opaque Config.embedding : BusEmbedding

/-- FREE VALUE. The level of the row lines in a cycle in which nothing constrains it: `draw RowSense()` (R20, R73;
log entry 6). The argument is the counter `State.cycle`. -/
opaque Config.freeRow : Nat → Lines

/-- FREE VALUE. `bus_rdata` in a cycle in which the spec leaves it unspecified (R48, R133; log entry 9).
The argument is the counter `State.cycle`. -/
opaque Config.freeRdata : Nat → Byte

/-- The parameters of the instance that `State.reset` is the reset state of: every OPEN one is a free value that meets
the constraint the spec puts on it. -/
def Config.board : Params where
  settleCycles := syncStages + Config.settleBeyondSync
  keymap := Config.keymap
  tClk := Config.tClkLessOne + 1
  tSettle := Config.tSettleLessOne + 1
  embedding := Config.embedding

/-- R60, `EXAMPLE_KEYMAP(r, c) = 4*r + c`, the key map of the spec's test vectors; it is no claim about any hardware. -/
def exampleKeymap : Vector SymCode 16 :=
  #v[0x0, 0x1, 0x2, 0x3, 0x4, 0x5, 0x6, 0x7, 0x8, 0x9, 0xA, 0xB, 0xC, 0xD, 0xE, 0xF]

end Sys2Proof
end

