-- ==== Sys2Proof/Syntax.lean ====
section
/-! DEFINITION. The syntax: the 11 host transactions of spec/30_encoding.md R58, one constructor per row of
spec/opcode_table.json, and the lines a host's script is made of (R65, R66). -/

namespace Sys2Proof

/-- A host transaction. The bits a row ignores (`wdata[7:2]` of a CTRL write, R57; `wdata` of a read, R54) are no part of it;
the data of a write to another address is, since the assembler names it (R65), though the block ignores it (R111-R113). -/
inductive Instr where
  /-- `WR CTRL, NOP` -/
  | wrCtrlNop
  /-- `WR CTRL, SCAN_ONCE` -/
  | wrCtrlScanOnce
  /-- `WR CTRL, WAIT_KEYPRESS` -/
  | wrCtrlWaitKeypress
  /-- `WR CTRL, RSVD_OP` -/
  | wrCtrlRsvdOp
  /-- `WR STATUS, #v` -/
  | wrStatus (v : Byte)
  /-- `WR RESULT, #v` -/
  | wrResult (v : Byte)
  /-- `WR RSVD3, #v` -/
  | wrRsvd3 (v : Byte)
  /-- `x = RD CTRL` -/
  | rdCtrl
  /-- `x = RD STATUS` -/
  | rdStatus
  /-- `x = RD RESULT` -/
  | rdResult
  /-- `x = RD RSVD3` -/
  | rdRsvd3
deriving DecidableEq, Repr

/-- One line of what the host does on the bus. -/
inductive HostLine where
  /-- one cycle that carries the transaction word `t`, any of the `2^11` (R54) -/
  | word (t : Txn)
  /-- `NOBUS n`: `n >= 1` cycles with `bus_sel = 0` (R65) -/
  | nobus (n : Nat)
  /-- `POLL`: `RD STATUS` until one returns bit 0 clear (R66). Any number of `NOBUS` cycles sits between the reads: as many as
  `gaps` says, in turn, and `gap` once `gaps` is used up. `poll [] 0` is the minimal expansion (log entry 5). -/
  | poll (gaps : List Nat) (gap : Nat)
deriving DecidableEq, Repr

end Sys2Proof
end

