-- ==== Sys2Proof/Machine/State.lean ====
section
/-! DEFINITION. The machine's state as plain data (spec/10_state.md), the state after reset (R38), and the reasons a step
can stop. -/

namespace Sys2Proof.Machine

/-- R14: the sequencing register `fsm`. `rsvd11` is the encoding 11, which no run from reset reaches; spec/93 I11 says that a
model that includes it makes it stuck (log entry 4). -/
inductive Fsm where
  | idle
  | settle
  | sample
  | rsvd11
deriving DecidableEq, Repr

/-- R14: the two bits of `fsm`. -/
def Fsm.code : Fsm → BitVec 2
  | .idle => 0b00
  | .settle => 0b01
  | .sample => 0b10
  | .rsvd11 => 0b11

/-- R15: the operation in progress, `OP_SCAN = 0` or `OP_WAIT = 1`. -/
inductive Op where
  | scan
  | wait
deriving DecidableEq, Repr

/-- R15: the bit of `op`. -/
def Op.code : Op → BitVec 1
  | .scan => 0
  | .wait => 1

/-- R16: the stage of the debounce FSM, `PRESS = 0` or `RELEASE = 1`. -/
inductive Wph where
  | press
  | release
deriving DecidableEq, Repr

/-- R16: the bit of `wph`. -/
def Wph.code : Wph → BitVec 1
  | .press => 0
  | .release => 1

/-- The state elements of the block, the rows of R38's table that are registers. `cnt` is `CNT_W` bits wide; the width depends
on a parameter, so it is a number that the settle step wraps at `2^CNT_W` (R18, R70; log entry 11). -/
structure Block where
  fsm : Fsm
  op : Op
  wph : Wph
  colIdx : LineIdx
  cnt : Nat
  colN : Lines
  s1 : Lines
  s2 : Lines
  prow : LineIdx
  pcol : LineIdx
  stDone : Bool
  stKey : Bool
  stErr : Bool
  res : Byte
deriving DecidableEq, Repr

/-- R38: what every state element holds after reset. -/
def Block.reset : Block where
  fsm := .idle
  op := .scan
  wph := .press
  colIdx := 0
  cnt := 0
  colN := 0b1111
  s1 := 0b1111
  s2 := 0b1111
  prow := 0
  pcol := 0
  stDone := false
  stKey := false
  stErr := false
  res := 0x00

/-- R2: the key that connects row line `row` to column line `col`. -/
structure Key where
  row : LineIdx
  col : LineIdx
deriving DecidableEq, Repr

/-- What drives the four row lines (R73; log entries 6 and 7). -/
inductive RowSource where
  /-- the levels are `rowN`, whatever makes them so: bounce, several keys, a stuck line, anything -/
  | lines (rowN : Lines)
  /-- a keypad with clean contacts and at most one key pressed: it obeys R73 where IDEAL holds, and is free elsewhere -/
  | keypad (pressed : Option Key)
  /-- nothing is known: a free draw in every cycle -/
  | unknown
deriving DecidableEq, Repr

/-- What the integrator's reset driver and the keypad do in one coming cycle. -/
structure EnvCycle where
  rstN : Bool
  rows : RowSource
deriving DecidableEq, Repr

/-- The machine at the start of a clock cycle.
* `block`: the block's registers (R38).
* `params`: the configuration constants (R5, R7, R8, R10, R140); no step writes them.
* `rstN`: the level of `rst_n` in this cycle, as the block sees it (R22, R133; log entry 3).
* `rows`: what drives `row_n` in this cycle (R20).
* `rowsHeld`: for how many cycles before this one `rows` has been the same (model's own, log entry 10).
* `env`: `rst_n` and `rows` in the cycles after this one; when it is used up, both stay as they are (log entry 8).
* `host`: what the host does from this cycle on; the first line gives the bus pins of this cycle (R23; log entry 5).
* `returned`: the values the host's reads have returned, oldest first (R151; log entry 9).
* `cycle`: the argument of the free values (model's own, log entry 10). -/
structure State where
  block : Block
  params : Params
  rstN : Bool
  rows : RowSource
  rowsHeld : Nat
  env : List EnvCycle
  host : List HostLine
  returned : List Byte
  cycle : Nat
deriving DecidableEq, Repr

/-- The state right after reset of an instance with parameters `p` (R38, R136): registers at their reset values, no command in
flight, no transaction on the bus, the row lines undetermined. -/
def State.resetWith (p : Params) : State where
  block := Block.reset
  params := p
  rstN := true
  rows := .unknown
  rowsHeld := 0
  env := []
  host := []
  returned := []
  cycle := 0

/-- The state right after reset, the OPEN parameters being free values (log entry 2). -/
def State.reset : State := State.resetWith Config.board

/-- The reasons the machine can stop with a fault. -/
inductive Fault where
  /-- Raised by `step` when `fsm` holds the encoding 11 and reset is not asserted (R14; spec/93 I11: stuck). Only a state before
  the first reset can hold it. Safe: the model stops, and allows no behaviour the spec rules out. -/
  | fsmEncoding11
deriving DecidableEq, Repr

/-- The reasons the model can refuse a transaction. -/
inductive Refusal where
  /-- Raised by an arm of `exec` whose transaction has no meaning yet (none at present). Safe: the model stops. -/
  | notModelled (mnemonic : String)
deriving DecidableEq, Repr

end Sys2Proof.Machine
end

