-- ==== Sys2Proof/Machine/Flags.lean ====
section
/-! DEFINITION. STATUS and RESULT as the host sees them (spec/10_state.md R28-R35, spec/30_encoding.md R62,
spec/43_host_access.md R115). -/

namespace Sys2Proof.Machine

/-- R29: `BUSY = (fsm != IDLE)`. -/
def Block.busy (b : Block) : Bool := decide (b.fsm ≠ .idle)

/-- R31: `RLS = (fsm != IDLE) and (op = OP_WAIT) and (wph = RELEASE)`. -/
def Block.rls (b : Block) : Bool := b.busy && decide (b.op = .wait) && decide (b.wph = .release)

/-- R28, R115: `STATUS = {0, RLS, COL[1:0], st_err, st_key, st_done, BUSY}`. -/
def Block.status (b : Block) : Byte :=
  0#1 ++ BitVec.ofBool b.rls ++ b.colIdx ++ BitVec.ofBool b.stErr ++ BitVec.ofBool b.stKey
    ++ BitVec.ofBool b.stDone ++ BitVec.ofBool b.busy

/-- R35, R62: `RESULT = {COL[1:0], ROW[1:0], SYM[3:0]}`. -/
def resultWord (k : Key) (sym : SymCode) : Byte := k.col ++ k.row ++ sym

end Sys2Proof.Machine
end

