-- ==== Sys2Proof/Machine/Lines.lean ====
section
/-! DEFINITION. The keypad lines: column drive, row sense, key decode (spec/30_encoding.md R59-R63,
spec/40_scan_phase.md). -/

namespace Sys2Proof.Machine

/-- R63: `col_n = ~(1 << c)`, column `c` alone driven (active-low). -/
def driveColumn (c : LineIdx) : Lines := ~~~(1#4 <<< c.toNat)

/-- R63, R19: no column driven. -/
def noColumn : Lines := 0b1111

/-- R63, R71: the active-row mask of a sample, `act = ~s2`. -/
def activeRows (s2 : Lines) : Lines := ~~~s2

/-- `lowest_set(m)` (spec/00_scope.md section 5): the least index whose bit is set; it has no value at 0. -/
def lowestSet (m : Lines) : Option LineIdx :=
  match m.getLsbD 0, m.getLsbD 1, m.getLsbD 2, m.getLsbD 3 with
  | true, _, _, _ => some 0
  | false, true, _, _ => some 1
  | false, false, true, _ => some 2
  | false, false, false, true => some 3
  | false, false, false, false => none

/-- R26: `KEYMAP(row, col)`, entry `4*row + col` of the table. -/
def keySymbol (p : Params) (k : Key) : SymCode :=
  p.keymap[4 * k.row.toNat + k.col.toNat]'(by omega)

/-- R77: the outcome of a phase. -/
inductive PhaseOutcome where
  | miss
  | hit (k : Key) (sym : SymCode)
deriving DecidableEq, Repr

/-- R74-R77: `Phase(c, act)`. -/
def phaseOutcome (p : Params) (c : LineIdx) (act : Lines) : PhaseOutcome :=
  match lowestSet act with
  | none => .miss
  | some r => .hit ⟨r, c⟩ (keySymbol p ⟨r, c⟩)

/-- R83: the outcome of a scan. -/
inductive ScanOutcome where
  | noKey
  | hit (k : Key) (sym : SymCode)
deriving DecidableEq, Repr

/-- R83: the result of a scan whose phases sample `a0`, `a1`, `a2`, `a3`: the first hit in column order, or no key. -/
def scanResult (p : Params) (a0 a1 a2 a3 : Lines) : ScanOutcome :=
  match phaseOutcome p 0 a0, phaseOutcome p 1 a1, phaseOutcome p 2 a2, phaseOutcome p 3 a3 with
  | .hit k sym, _, _, _ => .hit k sym
  | .miss, .hit k sym, _, _ => .hit k sym
  | .miss, .miss, .hit k sym, _ => .hit k sym
  | .miss, .miss, .miss, .hit k sym => .hit k sym
  | .miss, .miss, .miss, .miss => .noKey

/-- R88: how many phases the scan has: one more than the hit column, or 4 with no key. -/
def scanPhases : ScanOutcome → Nat
  | .hit k _ => k.col.toNat + 1
  | .noKey => 4

/-- R73, R20: the levels of the row lines that a keypad with at most one key pressed gives under IDEAL: the pressed key's row
is low while its column is driven low, and every other row is pulled up. -/
def idealRows (colN : Lines) : Option Key → Lines
  | none => 0b1111
  | some k => if colN.getLsbD k.col.toNat then 0b1111 else ~~~(1#4 <<< k.row.toNat)

/-- R140: the settle constraint, `(SETTLE_CYCLES + 1 - SYNC_STAGES) * T_CLK > t_settle`. -/
def settleConstraint (p : Params) : Bool :=
  decide (p.tSettle < (p.settleCycles + 1 - syncStages) * p.tClk)

/-- Whether, at the edge that ends this cycle, the row lines have had `t_settle` since the current column was driven, and the
pressed set has not changed since then: IDEAL (a) and (b) of R73 for a capture at that edge. In the cycle of SETTLE with counter
`n` the column has been driven for `n + 1` periods at its end, in the SAMPLE cycle one more. With no column driven R20's pull-up
gives the level (log entry 7). -/
def rowsIdeal (s : State) : Bool :=
  match s.block.fsm with
  | .settle => decide (s.params.tSettle < (s.block.cnt + 1) * s.params.tClk) && decide (s.block.cnt ≤ s.rowsHeld)
  | .sample => decide (s.params.tSettle < (s.block.cnt + 2) * s.params.tClk) && decide (s.block.cnt + 1 ≤ s.rowsHeld)
  | .idle => true
  | .rsvd11 => true

/-- The level of the pins `row_n[3:0]` at the edge that ends this cycle (R20, R73). -/
def State.rowN (s : State) : Lines :=
  match s.rows with
  | .lines v => v
  | .keypad k => if rowsIdeal s then idealRows s.block.colN k else Config.freeRow s.cycle
  | .unknown => Config.freeRow s.cycle

/-- R59: the 16-symbol alphabet. -/
inductive Symbol where
  | digit (d : Fin 10)
  | point
  | fn (n : Fin 5)
deriving DecidableEq, Repr

/-- R59: the code of a symbol; a digit's code is its value, `.` is 0xA, FN0 to FN4 are 0xB to 0xF. -/
def Symbol.code : Symbol → SymCode
  | .digit d => BitVec.ofNat 4 d.val
  | .point => 0xA
  | .fn n => BitVec.ofNat 4 (0xB + n.val)

/-- R59: the symbol of a code; all 16 codes are symbols. -/
def Symbol.ofCode (c : SymCode) : Symbol :=
  if h : c.toNat < 10 then .digit ⟨c.toNat, h⟩
  else if h' : c.toNat = 10 then .point
  else .fn ⟨c.toNat - 11, by have := c.isLt; omega⟩

end Sys2Proof.Machine
end

