-- ==== Sys2Proof/WellFormed.lean ====
section
/-! DEFINITION. Well-formedness of transactions, of host lines and of parameters: checks that run. -/

namespace Sys2Proof

/-- Every transaction is well-formed: the one operand there is, an 8-bit `v` (R65), carries its bound in its type, and
R57 and R64 forbid refusing any word. One row per constructor, so that a new one has to be considered here. -/
def Instr.wellFormed : Instr → Bool
  | .wrCtrlNop => true
  | .wrCtrlScanOnce => true
  | .wrCtrlWaitKeypress => true
  | .wrCtrlRsvdOp => true
  | .wrStatus _ => true
  | .wrResult _ => true
  | .wrRsvd3 _ => true
  | .rdCtrl => true
  | .rdStatus => true
  | .rdResult => true
  | .rdRsvd3 => true

/-- R65: `NOBUS n` needs `n >= 1`. -/
def HostLine.wellFormed : HostLine → Bool
  | .word _ => true
  | .nobus n => decide (1 ≤ n)
  | .poll _ _ => true

/-- R5: `SETTLE_CYCLES >= SYNC_STAGES`. R8 (parameter table of spec/92_eei_decisions.md): `T_CLK` is a positive time.
R140: `t_settle > 0`. -/
def Params.wellFormed (p : Params) : Bool :=
  decide (syncStages ≤ p.settleCycles) && decide (0 < p.tClk) && decide (0 < p.tSettle)

end Sys2Proof
end

