-- ==== Sys2Proof/Decode.lean ====
section
/-! DEFINITION. Decoder and encoder of host transactions (spec/30_encoding.md R54-R58, R65, R67). -/

namespace Sys2Proof

/-- R56: the command `OP = wdata[1:0]` of a CTRL write. -/
def decodeCtrlOp (op1 op0 : Bool) : Instr :=
  match op1, op0 with
  | false, false => .wrCtrlNop
  | false, true  => .wrCtrlScanOnce
  | true,  false => .wrCtrlWaitKeypress
  | true,  true  => .wrCtrlRsvdOp

/-- R54: the field `wdata = T[7:0]`. -/
def txnWdata (t : Txn) : Byte := t.extractLsb' 0 8

/-- R58: the row a transaction word matches, read off `T[10]` (`we`), `T[9:8]` (`addr`) and, in a CTRL write, `T[1:0]`.
Total: every 11-bit word is a transaction. -/
def decodeWord (t : Txn) : Instr :=
  match t.getLsbD 10, t.getLsbD 9, t.getLsbD 8 with
  | true,  false, false => decodeCtrlOp (t.getLsbD 1) (t.getLsbD 0)
  | true,  false, true  => .wrStatus (txnWdata t)
  | true,  true,  false => .wrResult (txnWdata t)
  | true,  true,  true  => .wrRsvd3 (txnWdata t)
  | false, false, false => .rdCtrl
  | false, false, true  => .rdStatus
  | false, true,  false => .rdResult
  | false, true,  true  => .rdRsvd3

/-- Why a list of bytes holds no transaction word. -/
inductive DecodeReject where
  /-- fewer than two bytes -/
  | tooFewBytes
  /-- a bit above `T[10]` is set: the second byte is no `T[10:8]` -/
  | bitsAboveWord
deriving DecidableEq, Repr

/-- A transaction word carried in two bytes, `T[7:0]` first and `T[10:8]` in the low bits of the second (the bus itself carries
the 11 bits side by side, so this layout is the model's: log entry 1). Answers the transaction and the bytes after it. -/
def decodeBytes : List Byte → Except DecodeReject (Instr × List Byte)
  | lo :: hi :: rest =>
    if hi.toNat < 8 then .ok (decodeWord (hi.extractLsb' 0 3 ++ lo), rest) else .error .bitsAboveWord
  | _ => .error .tooFewBytes

/-- The canonical word of a transaction (R65; R54: a read's `wdata` is 0; R57: a CTRL write's ignored bits are 0). -/
def encode : Instr → Txn
  | .wrCtrlNop => 0x400
  | .wrCtrlScanOnce => 0x401
  | .wrCtrlWaitKeypress => 0x402
  | .wrCtrlRsvdOp => 0x403
  | .wrStatus v => 0b101#3 ++ v
  | .wrResult v => 0b110#3 ++ v
  | .wrRsvd3 v => 0b111#3 ++ v
  | .rdCtrl => 0x000
  | .rdStatus => 0x100
  | .rdResult => 0x200
  | .rdRsvd3 => 0x300

/-- The two bytes that carry a transaction's canonical word (the layout of `decodeBytes`). -/
def encodeBytes (i : Instr) : List Byte :=
  [(encode i).extractLsb' 0 8, 0#5 ++ (encode i).extractLsb' 8 3]

/-- The bits of a table row's word as two bytes, first byte first; `none` where a bit above them is set. -/
def tableBytes (nbits w : Nat) : Option (List Byte) :=
  let bits := w % 2 ^ nbits
  if bits < 2 ^ 16 then some [BitVec.ofNat 8 bits, BitVec.ofNat 8 (bits / 2 ^ 8)] else none

/-- The transaction the decoder reads from the bits `w` of a row of `nbits` bits, numbered as spec/opcode_table.json numbers
them. -/
def decodeTableWord (nbits w : Nat) : Option Instr :=
  match tableBytes nbits w with
  | none => none
  | some bytes =>
    match decodeBytes bytes with
    | .ok (i, _) => some i
    | .error _ => none

/-- One row of the opcode table of R58. -/
structure OpcodeRow where
  mnemonic : String
  mask : Txn
  value : Txn
deriving DecidableEq, Repr

/-- The opcode table of R58, `match` and `mask` as it prints them. -/
def opcodeRows : List OpcodeRow :=
  [ ⟨"WR_CTRL__NOP", 0x703, 0x400⟩, ⟨"WR_CTRL__SCAN_ONCE", 0x703, 0x401⟩,
    ⟨"WR_CTRL__WAIT_KEYPRESS", 0x703, 0x402⟩, ⟨"WR_CTRL__RSVD_OP", 0x703, 0x403⟩,
    ⟨"WR_STATUS", 0x700, 0x500⟩, ⟨"WR_RESULT", 0x700, 0x600⟩, ⟨"WR_RSVD3", 0x700, 0x700⟩,
    ⟨"RD_CTRL", 0x700, 0x000⟩, ⟨"RD_STATUS", 0x700, 0x100⟩, ⟨"RD_RESULT", 0x700, 0x200⟩,
    ⟨"RD_RSVD3", 0x700, 0x300⟩ ]

/-- A word matches a row when its masked bits are the row's. -/
def OpcodeRow.matchesWord (r : OpcodeRow) (t : Txn) : Bool := t &&& r.mask == r.value

/-- The table's name of a transaction. -/
def Instr.mnemonic : Instr → String
  | .wrCtrlNop => "WR_CTRL__NOP"
  | .wrCtrlScanOnce => "WR_CTRL__SCAN_ONCE"
  | .wrCtrlWaitKeypress => "WR_CTRL__WAIT_KEYPRESS"
  | .wrCtrlRsvdOp => "WR_CTRL__RSVD_OP"
  | .wrStatus _ => "WR_STATUS"
  | .wrResult _ => "WR_RESULT"
  | .wrRsvd3 _ => "WR_RSVD3"
  | .rdCtrl => "RD_CTRL"
  | .rdStatus => "RD_STATUS"
  | .rdResult => "RD_RESULT"
  | .rdRsvd3 => "RD_RSVD3"

end Sys2Proof
end

