-- ==== Sys2Proof/Machine/Operands.lean ====
section
/-! DEFINITION. The bus pins, the transaction word they carry, and the host's script that drives them
(spec/10_state.md R23, spec/30_encoding.md R54, R55, R65, R66). -/

namespace Sys2Proof.Machine

/-- R23: the host's four input pins. -/
structure BusPins where
  sel : Bool
  we : Bool
  addr : RegAddr
  wdata : Byte
deriving DecidableEq, Repr

/-- A cycle with `bus_sel = 0`. It carries no transaction, so its other pins mean nothing. -/
def BusPins.none : BusPins := ⟨false, false, 0, 0⟩

/-- R54: the pins in a cycle that carries the word `t`. -/
def BusPins.ofWord (t : Txn) : BusPins := ⟨true, t.getLsbD 10, t.extractLsb' 8 2, t.extractLsb' 0 8⟩

/-- R54: the word on the pins, `{we, addr, wdata}`. -/
def BusPins.toWord (b : BusPins) : Txn := BitVec.ofBool b.we ++ b.addr ++ b.wdata

/-- What a line of the host's script puts on the pins in its cycle; `POLL` reads STATUS (R66). -/
def linePins : HostLine → BusPins
  | .word t => .ofWord t
  | .nobus _ => .none
  | .poll _ _ => .ofWord (encode .rdStatus)

/-- The bus pins in this cycle (R23): those of the host's first line; a host with nothing left to do is silent. -/
def State.bus (s : State) : BusPins :=
  match s.host with
  | [] => .none
  | line :: _ => linePins line

/-- R23, R54, R58: the transaction of this cycle, decoded from the pins; none when `bus_sel = 0`. -/
def State.transaction (s : State) : Option Instr :=
  if s.bus.sel then some (decodeWord s.bus.toWord) else none

/-- R66: what a `POLL` is after a read that showed BUSY: the `NOBUS` cycles before its next read, then the rest of it. -/
def pollAgain (gaps : List Nat) (gap : Nat) : List HostLine :=
  if gaps.headD gap = 0 then [.poll gaps.tail gap] else [.nobus (gaps.headD gap), .poll gaps.tail gap]

/-- What is left of the host's script after a cycle in which the bus returned `rdata`. `NOBUS n` lasts `n` cycles; `POLL` ends
with the read whose bit 0 is clear (R65, R66). -/
def hostAfter (rdata : Byte) : List HostLine → List HostLine
  | [] => []
  | .word _ :: rest => rest
  | .nobus n :: rest => if n ≤ 1 then rest else .nobus (n - 1) :: rest
  | .poll gaps gap :: rest => if rdata.getLsbD 0 then pollAgain gaps gap ++ rest else rest

/-- The host line that issues transaction `i` with its canonical word (R65). -/
def issueLine (i : Instr) : HostLine := .word (encode i)

/-- R66: the expansion of `SCAN r`, with the `NOBUS` cycles between the reads of its `POLL`. -/
def scanMacro (gaps : List Nat) (gap : Nat) : List HostLine :=
  [issueLine .wrCtrlScanOnce, .poll gaps gap, issueLine .rdResult]

/-- R66: the expansion of `GETKEY r`, with the `NOBUS` cycles between the reads of its `POLL`. -/
def getkeyMacro (gaps : List Nat) (gap : Nat) : List HostLine :=
  [issueLine .wrCtrlWaitKeypress, .poll gaps gap, issueLine .rdResult]

/-- R66: the result of `SCAN r` whose `POLL` ended with the read `status`: "no key" when `status[2] = 0`, else `r`. -/
def scanAnswer (status r : Byte) : Option Byte := if status.getLsbD 2 then some r else none

/-- The host has transactions still to make: a line of its script is no `NOBUS`. -/
def hasTransaction (host : List HostLine) : Bool :=
  host.any fun
    | .word _ => true
    | .nobus _ => false
    | .poll _ _ => true

end Sys2Proof.Machine
end

