-- ==== Sys2Proof/Machine/Ops.lean ====
section
/-! DEFINITION. The named operations: register reads, the FSM's actions, the edge, reset.

An edge computes every next value from the values before it (R12). So an FSM action takes the block before the edge, `pre`,
which it reads, and the block `b` it writes into; what it does not write it leaves as `b` has it.

The block takes no exception and returns from none (R121, R122); its one shared error operation is `Block.reject` (R108). -/

namespace Sys2Proof.Machine

/-! ### The register space -/

/-- R39, R43, R46: `MemRead(a, 1)`, the register at address `a`, from one state. CTRL and address 0x3 read 0x00 (R27, R36),
STATUS is R28 and RESULT R35. -/
def Block.readReg (b : Block) (a : RegAddr) : Byte :=
  match a.getLsbD 1, a.getLsbD 0 with
  | false, false => 0x00
  | false, true  => b.status
  | true,  false => b.res
  | true,  true  => 0x00

/-- A host read of address `a` in this cycle: it returns the register's value, and changes nothing (R44, R48). -/
def State.hostRead (a : RegAddr) (s : State) : State :=
  { s with returned := s.returned ++ [s.block.readReg a] }

/-- The pins `bus_rdata[7:0]` in this cycle: the addressed register in a read cycle (R48); unspecified in every other cycle and
while reset is asserted (R48, R133; log entry 9). -/
def State.busRdata (s : State) : Byte :=
  if s.rstN && s.bus.sel && !s.bus.we then s.block.readReg s.bus.addr else Config.freeRdata s.cycle

/-! ### Starting and ending -/

/-- R69: `StartPhase(c)`. -/
def Block.startPhase (c : LineIdx) (b : Block) : Block :=
  { b with fsm := .settle, colIdx := c, cnt := 0, colN := driveColumn c }

/-- R84: `StartScan`. -/
def Block.startScan (b : Block) : Block := b.startPhase 0

/-- R110: `Accept(o)`. -/
def Block.accept (o : Op) (b : Block) : Block :=
  ({ b with op := o, wph := .press, stDone := false, stKey := false, stErr := false } : Block).startScan

/-- R108, R109: a rejected command write sets `st_err` and nothing else. -/
def Block.reject (b : Block) : Block := { b with stErr := true }

/-- The registers a completion returns to idle, the same for both commands (R87, R97). -/
def Block.toIdle (b : Block) : Block :=
  { b with fsm := .idle, colN := noColumn, colIdx := 0, cnt := 0, wph := .press, stDone := true }

/-- R87: `Complete(outcome)`. -/
def Block.complete (o : ScanOutcome) (b : Block) : Block :=
  match o with
  | .hit k sym => { b.toIdle with stKey := true, res := resultWord k sym }
  | .noKey => { b.toIdle with stKey := false, res := 0x00 }

/-- R97: the completion of `wait_for_keypress`, which reports the latched key. -/
def Block.completeWait (p : Params) (b pre : Block) : Block :=
  { b.toIdle with stKey := true, res := resultWord ⟨pre.prow, pre.pcol⟩ (keySymbol p ⟨pre.prow, pre.pcol⟩) }

/-- R95: press detected. -/
def Block.latchPress (k : Key) (b : Block) : Block :=
  ({ b with prow := k.row, pcol := k.col, wph := .release } : Block).startScan

/-- R86: `ScanEnd(outcome)`: R87 for a scan, R94 to R97 for the debounce FSM. -/
def Block.scanEnd (p : Params) (o : ScanOutcome) (b pre : Block) : Block :=
  match pre.op, pre.wph, o with
  | .scan, _, o => b.complete o
  | .wait, .press, .noKey => b.startScan
  | .wait, .press, .hit k _ => b.latchPress k
  | .wait, .release, .hit _ _ => b.startScan
  | .wait, .release, .noKey => b.completeWait p pre

/-! ### The FSM's step -/

/-- `max(1, ceil(log2 n))` for `n = SETTLE_CYCLES`: R9's `CNT_W`. -/
def cntWidth (settleCycles : Nat) : Nat :=
  if settleCycles ≤ 2 then 1 else Nat.log2 (settleCycles - 1) + 1

/-- R70: the settle step. -/
def Block.settleStep (p : Params) (b pre : Block) : Block :=
  if pre.cnt = p.settleCycles - 1 then { b with fsm := .sample }
  else { b with cnt := (pre.cnt + 1) % 2 ^ cntWidth p.settleCycles }

/-- R71, R85: the sample and the phase-end step. -/
def Block.sampleStep (p : Params) (b pre : Block) : Block :=
  match phaseOutcome p pre.colIdx (activeRows pre.s2) with
  | .miss => if pre.colIdx = 3 then b.scanEnd p .noKey pre else b.startPhase (pre.colIdx + 1)
  | .hit k sym => b.scanEnd p (.hit k sym) pre

/-- The FSM's step at an edge (R70, R71; none while idle, R124, R131). -/
def Block.fsmStep (p : Params) (b pre : Block) : Block :=
  match pre.fsm with
  | .idle => b
  | .settle => b.settleStep p pre
  | .sample => b.sampleStep p pre
  | .rsvd11 => b

/-- R24: `s1 <- row_n; s2 <- s1`. -/
def Block.rowSync (rowN : Lines) (b pre : Block) : Block := { b with s1 := rowN, s2 := pre.s1 }

/-- The block's own registers at an edge: the FSM's step and the synchroniser's shift, both from `pre`. -/
def Block.edge (p : Params) (rowN : Lines) (b pre : Block) : Block := (b.fsmStep p pre).rowSync rowN pre

/-! ### The cycle -/

/-- What the reset driver and the keypad do in the next cycle; levels stay once `env` is used up (log entry 8). -/
def State.nextEnv (s : State) : EnvCycle := s.env.headD ⟨s.rstN, s.rows⟩

/-- The start of the cycle after `pre`, the registers being those of `t`. The outside agents move on; where the new cycle has
`rst_n = 0` the registers take their reset values without an edge (R132; log entry 3). -/
def nextCycle (pre t : State) : State :=
  { t with
    block := if pre.nextEnv.rstN then t.block else Block.reset
    rstN := pre.nextEnv.rstN
    rows := pre.nextEnv.rows
    rowsHeld := if pre.nextEnv.rows = pre.rows then pre.rowsHeld + 1 else 0
    env := pre.env.tail
    host := hostAfter pre.busRdata pre.host
    cycle := pre.cycle + 1 }

/-- The edge that ends a cycle in which the transaction turned `pre` into `t`: the FSM's writes, computed from `pre`, land at
the same edge (R48, R124; log entry 14). -/
def clockEdge (pre t : State) : State :=
  nextCycle pre { t with block := t.block.edge pre.params pre.rowN pre.block }

/-- A cycle with `rst_n = 0`: the registers are held at their reset values, a write has no effect, and a read returns whatever
the pins carry (R132, R133; spec/93 I10). -/
def resetCycle (s : State) : State :=
  nextCycle s
    { s with
      block := Block.reset
      returned := if s.bus.sel && !s.bus.we then s.returned ++ [s.busRdata] else s.returned }

/-- The end of a cycle whose transaction answered `o`. -/
def finishCycle (pre : State) (o : Host.Outcome State Fault Refusal) : Host.Outcome State Fault Refusal :=
  match o with
  | .next t => .next (clockEdge pre t)
  | .fault f => .fault f
  | .refused r => .refused r

/-- Puts the word `t` on the bus in this cycle, before everything else the host does. -/
def State.withWord (s : State) (t : Txn) : State := { s with host := .word t :: s.host, rstN := true }

end Sys2Proof.Machine
end

