-- ==== Sys2Proof/Machine/HostRead.lean ====
section
/-! DEFINITION. The meanings of the host's reads (spec/43_host_access.md section 3). Each hands the host the register's value
before the edge, and changes no state of the block (R44). -/

namespace Sys2Proof.Machine

/-- R114: returns 0x00 always. -/
def execRdCtrl (s : State) : Host.Outcome State Fault Refusal := .next (s.hostRead 0)

/-- R115: returns STATUS. -/
def execRdStatus (s : State) : Host.Outcome State Fault Refusal := .next (s.hostRead 1)

/-- R116: returns `res`. -/
def execRdResult (s : State) : Host.Outcome State Fault Refusal := .next (s.hostRead 2)

/-- R117: returns 0x00. -/
def execRdRsvd3 (s : State) : Host.Outcome State Fault Refusal := .next (s.hostRead 3)

end Sys2Proof.Machine
end

