-- ==== Sys2Proof/Machine/HostWrite.lean ====
section
/-! DEFINITION. The meanings of the host's writes (spec/43_host_access.md sections 1 and 2). Each gives the transaction's own
effect, computed from the state before the edge; what the FSM does at the same edge is `clockEdge`'s. -/

namespace Sys2Proof.Machine

/-- A start command: accepted when `BUSY = 0`, else rejected (R106-R108, R110). -/
def State.startCommand (o : Op) (s : State) : State :=
  { s with block := if s.block.busy then s.block.reject else s.block.accept o }

/-- R105: no register changes, in any `fsm` state, and no flag is written. -/
def execWrCtrlNop (s : State) : Host.Outcome State Fault Refusal := .next s

/-- R106, R88. -/
def execWrCtrlScanOnce (s : State) : Host.Outcome State Fault Refusal := .next (s.startCommand .scan)

/-- R107, R98. -/
def execWrCtrlWaitKeypress (s : State) : Host.Outcome State Fault Refusal := .next (s.startCommand .wait)

/-- R109: rejected whatever the value of BUSY. -/
def execWrCtrlRsvdOp (s : State) : Host.Outcome State Fault Refusal := .next { s with block := s.block.reject }

/-- R111: STATUS is read-only, and its flags are not write-one-to-clear. -/
def execWrStatus (_v : Byte) (s : State) : Host.Outcome State Fault Refusal := .next s

/-- R112: ignored. -/
def execWrResult (_v : Byte) (s : State) : Host.Outcome State Fault Refusal := .next s

/-- R113: ignored. -/
def execWrRsvd3 (_v : Byte) (s : State) : Host.Outcome State Fault Refusal := .next s

end Sys2Proof.Machine
end

