-- ==== Sys2Proof/Machine/Dispatch.lean ====
section
/-! DEFINITION. One arm per constructor of `Instr`. -/

namespace Sys2Proof.Machine

def exec (i : Instr) (s : State) : Host.Outcome State Fault Refusal :=
  match i with
  | .wrCtrlNop => Sys2Proof.Machine.execWrCtrlNop s
  | .wrCtrlScanOnce => Sys2Proof.Machine.execWrCtrlScanOnce s
  | .wrCtrlWaitKeypress => Sys2Proof.Machine.execWrCtrlWaitKeypress s
  | .wrCtrlRsvdOp => Sys2Proof.Machine.execWrCtrlRsvdOp s
  | .wrStatus v => Sys2Proof.Machine.execWrStatus v s
  | .wrResult v => Sys2Proof.Machine.execWrResult v s
  | .wrRsvd3 v => Sys2Proof.Machine.execWrRsvd3 v s
  | .rdCtrl => Sys2Proof.Machine.execRdCtrl s
  | .rdStatus => Sys2Proof.Machine.execRdStatus s
  | .rdResult => Sys2Proof.Machine.execRdResult s
  | .rdRsvd3 => Sys2Proof.Machine.execRdRsvd3 s

end Sys2Proof.Machine
end

