-- ==== Sys2Proof/Machine/Step.lean ====
section
/-! DEFINITION. One clock cycle of the machine and the edge that ends it. -/

namespace Sys2Proof.Machine

/-- One cycle (R124). With `rst_n = 0` reset overrides everything. Otherwise the transaction the pins carry, if any, takes its
effect and the FSM takes its step, both from the state before the edge. `fsm = 11` has no enabled step (spec/93 I11). -/
def step (s : State) : Host.Outcome State Fault Refusal :=
  if s.rstN = false then .next (resetCycle s)
  else if s.block.fsm = .rsvd11 then .fault .fsmEncoding11
  else match s.transaction with
    | none => .next (clockEdge s s)
    | some i => finishCycle s (exec i s)

/-- `s` with the transaction of bits `w` on the bus in this cycle, and reset not asserted. The block fetches nothing: this stands
for the host's issuing the transaction (log entry 5). -/
def State.withFetchWord (s : State) (nbits w : Nat) : State := s.withWord (BitVec.ofNat 11 (w % 2 ^ nbits))

end Sys2Proof.Machine
end

