-- ==== Sys2Proof/Safety.lean ====
section
/-! DEFINITION. The terms claims are stated in: the legal states, runs, the launch premise, what is observed. -/

namespace Sys2Proof.Machine

/-- What every state that a run reaches satisfies, of the block's registers.
* `fsm_defined`: R14, the encoding 11 is never reached.
* `col_drive`: R68, the column-line invariant.
* `cnt_range`, `sample_cnt`: R70, `cnt` runs from 0 to `SETTLE_CYCLES - 1`, where the settle step ends.
* `idle_rest`: R87, R97, R17: what a completion, and reset, leave while idle.
* `scan_press`: R16, only the debounce FSM has a release stage.
* `done_idle`, `key_done`: R115, R33: DONE and BUSY never hold together, and KEY is set with DONE. -/
structure Block.Legal (p : Params) (b : Block) : Prop where
  fsm_defined : b.fsm ≠ .rsvd11
  col_drive : b.colN = if b.fsm = .idle then noColumn else driveColumn b.colIdx
  cnt_range : b.cnt < p.settleCycles
  sample_cnt : b.fsm = .sample → b.cnt + 1 = p.settleCycles
  idle_rest : b.fsm = .idle → b.colIdx = 0 ∧ b.cnt = 0 ∧ b.wph = .press
  scan_press : b.op = .scan → b.wph = .press
  done_idle : b.stDone = true → b.fsm = .idle
  key_done : b.stKey = true → b.stDone = true

/-- The machine's invariant: parameters within their constraints, legal registers, and reset values while reset is asserted
(R132). -/
structure State.Inv (s : State) : Prop where
  params_ok : s.params.wellFormed = true
  legal : s.block.Legal s.params
  reset_held : s.rstN = false → s.block = Block.reset

/-- R35: with KEY set, RESULT is the word of a key under the key map; with DONE and not KEY it is 0x00. -/
structure Block.ResultCoherent (p : Params) (b : Block) : Prop where
  key_word : b.stKey = true → ∃ k : Key, b.res = resultWord k (keySymbol p k)
  no_key : b.stDone = true → b.stKey = false → b.res = 0x00

/-- The transaction of this cycle is a start command for `o`, if any (R106, R107). -/
def State.startsNow (s : State) : Option Op :=
  match s.transaction with
  | some .wrCtrlScanOnce => some .scan
  | some .wrCtrlWaitKeypress => some .wait
  | _ => none

/-- A start command is accepted in this cycle (R110). -/
def State.acceptsNow (s : State) : Bool := s.startsNow.isSome && !s.block.busy

/-- A command write is rejected in this cycle (R108, R109). -/
def State.rejectsNow (s : State) : Bool :=
  decide (s.transaction = some .wrCtrlRsvdOp) || (s.startsNow.isSome && s.block.busy)

/-- What a scan of the debounce FSM that starts the next one leaves (R84): the phase registers of column 0, the flags and
`res` untouched but for a rejected write of the same cycle. -/
def State.startsNextScan (s : State) (b : Block) : Prop :=
  b.fsm = .settle ∧ b.colIdx = 0 ∧ b.cnt = 0 ∧ b.colN = 0b1110 ∧ b.op = s.block.op
  ∧ b.stDone = s.block.stDone ∧ b.stKey = s.block.stKey ∧ b.res = s.block.res
  ∧ b.stErr = (s.block.stErr || s.rejectsNow)

/-- This cycle ends in a next state, and, unless reset is asserted in the next cycle, `P` holds of the registers there. -/
def State.cycleGives (s : State) (P : Block → Prop) : Prop :=
  ∃ t, step s = .next t ∧ (t.rstN = true → P t.block)

/-- `n` cycles, stopping at the first fault or refusal. -/
def runCycles : Nat → State → Host.Outcome State Fault Refusal
  | 0, s => .next s
  | n + 1, s =>
    match step s with
    | .next t => runCycles n t
    | .fault f => .fault f
    | .refused r => .refused r

/-- After `n` cycles the machine is in a state of which `P` holds. -/
def State.after (n : Nat) (s : State) (P : State → Prop) : Prop := ∃ t, runCycles n s = .next t ∧ P t

/-- Reset is not asserted, now or later. -/
def State.noReset (s : State) : Prop := s.rstN = true ∧ ∀ e ∈ s.env, e.rstN = true

/-- Reset is not asserted and the row source stays what it is, now and later. -/
def State.steady (s : State) : Prop := s.rstN = true ∧ ∀ e ∈ s.env, e = ⟨true, s.rows⟩

/-- The row source keeps row line `r` active, whatever it does with the others. -/
def RowSource.holdsActive (r : LineIdx) : RowSource → Bool
  | .lines rowN => !rowN.getLsbD r.toNat
  | .keypad _ => false
  | .unknown => false

/-- R147: row line `r` is stuck active, now and later; the other row lines may change in every cycle. -/
def State.stuckActive (r : LineIdx) (s : State) : Prop :=
  s.rows.holdsActive r = true ∧ ∀ e ∈ s.env, e.rows.holdsActive r = true

/-- R151, `CLEAN_ENTRY`: the launch premise of a run. The named premises `KEYMAP = K` and `SETTLE_CYCLES = S` are equations on
`s.params`. -/
def State.cleanEntry (s : State) : Prop := s.block = Block.reset ∧ s.rstN = true

/-- R151: what is observed at the end of a run. -/
structure Observation where
  status : Byte
  result : Byte
  colN : Lines
  returned : List Byte
deriving DecidableEq, Repr

/-- R151: what is observed in state `t` of the run launched in state `launch`: of the values read, those of the run alone. -/
def State.observe (launch t : State) : Observation :=
  ⟨t.block.status, t.block.res, t.block.colN, t.returned.drop launch.returned.length⟩

/-- R151: the program's last transaction is made and no command is in flight. -/
def State.runOver (s : State) : Bool := !hasTransaction s.host && !s.block.busy

/-- R151: the run launched in `s` ends with the edge that ends its `n`-th cycle, with observation `o`. That edge is the first one
after which no transaction is left and the block is idle: the one that ends the last transaction's cycle where that leaves the
block idle, else the completion edge. Idle cycles that the script goes on with are no part of the run. -/
def State.runEnds (s : State) (n : Nat) (o : Observation) : Prop :=
  s.cleanEntry ∧ s.noReset ∧ (s.after n fun t => t.runOver = true ∧ s.observe t = o)
  ∧ ∀ m, m < n → s.after m fun t => t.runOver = false

/-- R61, `KEYMAP_BIJECTIVE`, a premise that no rule grants: two keys never share a symbol. -/
def keymapBijective (p : Params) : Prop := ∀ k k' : Key, keySymbol p k = keySymbol p k' → k = k'

end Sys2Proof.Machine
end

