-- ==== Sys2Proof/Certificates/Slice0/Obligations.lean ====
section
/-! DEFINITION. The statements about the model, each from the numbered rules of spec/. -/

open Sys2Proof Sys2Proof.Machine

/-! ### Encodings -/

/-- R65 and spec/95 section 2.1, words written out from the spec's patterns: what each decodes to. The last three clauses, the word
read as two bytes and a bit above `T[10]` refused, are the model's choice (log entry 1). -/
def Obligations.SpecWordsDecode : Prop :=
  decodeWord 0b10000000000 = .wrCtrlNop ∧ decodeWord 0b10011111101 = .wrCtrlScanOnce
  ∧ decodeWord 0b10000000010 = .wrCtrlWaitKeypress ∧ decodeWord 0b10011111111 = .wrCtrlRsvdOp
  ∧ decodeWord 0b10111111111 = .wrStatus 0xFF ∧ decodeWord 0b11000000000 = .wrResult 0x00
  ∧ decodeWord 0b11101011010 = .wrRsvd3 0x5A ∧ decodeWord 0b00010101011 = .rdCtrl
  ∧ decodeWord 0b00100000000 = .rdStatus ∧ decodeWord 0b01000000000 = .rdResult
  ∧ decodeWord 0b01100000000 = .rdRsvd3
  ∧ decodeTableWord 16 0x402 = some .wrCtrlWaitKeypress ∧ decodeTableWord 16 0x5A5 = some (.wrStatus 0xA5)
  ∧ decodeTableWord 16 0x800 = none

/-- R58: every 11-bit word matches exactly one row of the table, and decodes to that row's transaction. -/
def Obligations.EveryWordMatchesExactlyOneRow : Prop :=
  ∀ t : Txn, (opcodeRows.filter (·.matchesWord t)).map (·.mnemonic) = [(decodeWord t).mnemonic]

/-- R57: `wdata[7:2]` of a CTRL write are ignored by the decoder, and no value of them is refused or raises anything. -/
def Obligations.IgnoredCtrlBitsDoNotDecode : Prop :=
  ∀ t : Txn, t &&& 0x700 = 0x400 →
    decodeWord t = decodeWord (t &&& 0x703) ∧ ∀ s : State, ∃ u, exec (decodeWord t) s = .next u

/-- Decode and encode agree: every well-formed transaction comes back from its word, and from its bytes with what follows them;
and every word encodes back from its transaction but for the bits its row ignores. -/
def Obligations.DecodeEncodeRoundTrip : Prop :=
  (∀ i : Instr, i.wellFormed = true →
    decodeWord (encode i) = i ∧ ∀ rest, decodeBytes (encodeBytes i ++ rest) = .ok (i, rest))
  ∧ ∀ t : Txn, encode (decodeWord t)
      = if t.getLsbD 10 = false then t &&& 0x700 else if t &&& 0x700 = 0x400 then t &&& 0x703 else t

/-- R63: driving column `c` alone is `~(1 << c)` (1110, 1101, 1011, 0111), no column is 1111, and the active-row mask of a
sample has a row's bit set exactly when that row reads low. -/
def Obligations.LineEncodings : Prop :=
  driveColumn 0 = 0b1110 ∧ driveColumn 1 = 0b1101 ∧ driveColumn 2 = 0b1011 ∧ driveColumn 3 = 0b0111
  ∧ noColumn = 0b1111
  ∧ ∀ (s2 : Lines) (r : LineIdx), (activeRows s2).getLsbD r.toNat = !s2.getLsbD r.toNat

/-- R74, R75, R77: a phase whose sample has no active row is a miss; any other is a hit, at the active row of least index in the
driven column, with that key's symbol. That `lowestSet` has no value at 0 is the model's choice (log entry 17: spec/00_scope.md
section 5 leaves it undefined there). -/
def Obligations.LeastActiveRowIsReported : Prop :=
  ∀ act : Lines,
    (lowestSet act = none ↔ act = 0)
    ∧ (∀ r : LineIdx, lowestSet act = some r ↔
        (act.getLsbD r.toNat = true ∧ ∀ r' : LineIdx, r' < r → act.getLsbD r'.toNat = false))
    ∧ ∀ (p : Params) (c : LineIdx),
        (act = 0 → phaseOutcome p c act = .miss)
        ∧ ∀ r : LineIdx, lowestSet act = some r → phaseOutcome p c act = .hit ⟨r, c⟩ (keySymbol p ⟨r, c⟩)

/-- R59: the 16 codes and the 16 symbols are one to one, a digit's code is its value, `.` is 0xA, FN0 to FN4 are 0xB to 0xF. -/
def Obligations.SymbolCodes : Prop :=
  (∀ c : SymCode, (Symbol.ofCode c).code = c) ∧ (∀ y : Symbol, Symbol.ofCode y.code = y)
  ∧ (∀ d : Fin 10, (Symbol.digit d).code.toNat = d.val) ∧ Symbol.point.code = 0xA
  ∧ ∀ n : Fin 5, (Symbol.fn n).code.toNat = 0xB + n.val

/-! ### Reset -/

/-- R38: the reset value of every state element that has one, and STATUS as read, for every instance. -/
def Obligations.ResetValues : Prop :=
  ∀ p : Params, (State.resetWith p).params = p
    ∧ (State.resetWith p).block.fsm.code = 0b00 ∧ (State.resetWith p).block.op.code = 0
    ∧ (State.resetWith p).block.wph.code = 0 ∧ (State.resetWith p).block.colIdx = 0 ∧ (State.resetWith p).block.cnt = 0
    ∧ (State.resetWith p).block.colN = 0b1111 ∧ (State.resetWith p).block.s1 = 0b1111
    ∧ (State.resetWith p).block.s2 = 0b1111 ∧ (State.resetWith p).block.prow = 0 ∧ (State.resetWith p).block.pcol = 0
    ∧ (State.resetWith p).block.stDone = false ∧ (State.resetWith p).block.stKey = false
    ∧ (State.resetWith p).block.stErr = false ∧ (State.resetWith p).block.res = 0x00
    ∧ (State.resetWith p).block.status = 0x00 ∧ State.reset = State.resetWith State.reset.params

/-- R132: while reset is asserted every register holds its reset value and the columns are inactive, from any state before it
(one with `fsm = 11` too); and it takes hold in the cycle of its assertion, without an edge. That a cycle is the finest time at
which the model sees an assertion is the model's choice (log entry 3). -/
def Obligations.ResetHoldsEveryElement : Prop :=
  (∀ s : State, s.rstN = false → ∃ t, step s = .next t ∧ t.block = Block.reset ∧ t.block.colN = 0b1111 ∧ t.params = s.params)
  ∧ ∀ s t : State, step s = .next t → t.rstN = false → t.block = Block.reset ∧ t.block.colN = 0b1111

/-- R133, R138: a transaction in a reset cycle changes no register, and a start command in the first cycle after release is
accepted at that cycle's edge. -/
def Obligations.FirstTransactionAfterRelease : Prop :=
  ∀ (s : State) (w w' : Txn) (rest : List HostLine) (o : Op),
    s.rstN = false → s.nextEnv.rstN = true → s.host = .word w' :: .word w :: rest →
    decodeWord w = (match o with | .scan => .wrCtrlScanOnce | .wait => .wrCtrlWaitKeypress) →
    ∃ t u, step s = .next t ∧ t.block = Block.reset ∧ step t = .next u
      ∧ (u.rstN = true → u.block.status = 0x01 ∧ u.block.colN = 0b1110 ∧ u.block.op = o)

/-! ### A cycle -/

/-- A step runs the decoded transaction: in a cycle without reset whose pins carry a word that decodes to `i`, the step is
`exec i`, followed by the clock edge (`ClockEdgeMovesTheCycleOn`). -/
def Obligations.StepRunsTheTransaction : Prop :=
  ∀ (s : State) (i : Instr), s.rstN = true → s.block.fsm ≠ .rsvd11 → s.bus.sel = true → decodeWord s.bus.toWord = i →
    i.wellFormed = true →
    step s = (match exec i s with
      | .next t => .next (clockEdge s t)
      | .fault f => .fault f
      | .refused r => .refused r)

/-- A transaction the host puts on the bus, given as the bits of its table row, is the one the next step runs. -/
def Obligations.IssuedWordIsRun : Prop :=
  ∀ (s : State) (nbits w : Nat) (i : Instr), s.block.fsm ≠ .rsvd11 → decodeTableWord nbits w = some i →
    step (s.withFetchWord nbits w) = finishCycle (s.withFetchWord nbits w) (exec i (s.withFetchWord nbits w))

/-- What a cycle adds to the transaction's own effect (`t`, from `s`): the FSM's step and the synchroniser's shift from the
registers before the edge, then the next cycle's levels; the registers take their reset values if that cycle asserts reset. The
host's script, the parameters and the values returned are as stated. -/
def Obligations.ClockEdgeMovesTheCycleOn : Prop :=
  ∀ s t : State,
    (clockEdge s t).block
        = (if s.nextEnv.rstN then
            { t.block.fsmStep s.params s.block with s1 := s.rowN, s2 := s.block.s1 }
          else Block.reset)
    ∧ (clockEdge s t).params = t.params ∧ (clockEdge s t).returned = t.returned
    ∧ (clockEdge s t).rstN = s.nextEnv.rstN ∧ (clockEdge s t).rows = s.nextEnv.rows
    ∧ (clockEdge s t).env = s.env.tail ∧ (clockEdge s t).host = hostAfter s.busRdata s.host
    ∧ (clockEdge s t).cycle = s.cycle + 1
    ∧ (clockEdge s t).rowsHeld = if s.nextEnv.rows = s.rows then s.rowsHeld + 1 else 0

/-- R24: the synchroniser shifts at every edge, in every `fsm` state and whatever the host does. -/
def Obligations.SynchroniserShiftsAtEveryEdge : Prop :=
  ∀ s t : State, s.rstN = true → step s = .next t → t.rstN = true → t.block.s1 = s.rowN ∧ t.block.s2 = s.block.s1

/-- R131, idle part: a cycle with no transaction while idle changes only `row_sync`. -/
def Obligations.IdleCycleChangesOnlyRowSync : Prop :=
  ∀ s : State, s.rstN = true → s.block.fsm = .idle → s.bus.sel = false →
    s.cycleGives fun b => b = { s.block with s1 := s.rowN, s2 := s.block.s1 }

/-- R125: the block is never stuck: from every state but `fsm = 11` a step answers a next state, again not `fsm = 11`. -/
def Obligations.StepAlwaysAnswers : Prop :=
  ∀ s : State, s.block.fsm ≠ .rsvd11 → ∃ t, step s = .next t ∧ t.block.fsm ≠ .rsvd11

/-- The model's choice (log entry 4, after spec/93 I11): `fsm = 11` has no step, and reset ends it. -/
def Obligations.ReservedFsmEncodingIsStuck : Prop :=
  ∀ s : State, s.block.fsm = .rsvd11 →
    (s.rstN = true → step s = .fault .fsmEncoding11)
    ∧ (s.rstN = false → ∃ t, step s = .next t ∧ t.block.fsm = .idle)

/-! ### Writes -/

/-- R110: an accepted start command. Its own effect; and, the FSM making no step at this edge, the registers after the edge. -/
def Obligations.StartCommandAcceptedWhenIdle : Prop :=
  ∀ (s : State) (o : Op) (i : Instr), s.block.fsm = .idle →
    i = (match o with | .scan => .wrCtrlScanOnce | .wait => .wrCtrlWaitKeypress) →
    let b := { s.block with
      op := o, wph := .press, stDone := false, stKey := false, stErr := false,
      fsm := .settle, colIdx := 0, cnt := 0, colN := 0b1110 }
    exec i s = .next { s with block := b }
    ∧ (s.rstN = true → s.transaction = some i → s.cycleGives fun b' => b' = { b with s1 := s.rowN, s2 := s.block.s1 })

/-- R108: a start command while busy sets `st_err` and does nothing else; the FSM's own step at the edge is the one it makes
when the cycle carries no transaction. -/
def Obligations.StartCommandRejectedWhenBusy : Prop :=
  ∀ (s : State) (i : Instr), (i = .wrCtrlScanOnce ∨ i = .wrCtrlWaitKeypress) → s.block.busy = true →
    exec i s = .next { s with block := { s.block with stErr := true } }
    ∧ ∀ (w : Txn) (rest : List HostLine), s.rstN = true → s.block.fsm ≠ .rsvd11 → s.host = .word w :: rest →
        decodeWord w = i →
        ∃ t u, step s = .next t ∧ step { s with host := .nobus 1 :: rest } = .next u
          ∧ (u.rstN = true → t = { u with block := { u.block with stErr := true } })

/-- R109: the reserved operation sets `st_err` and does nothing else, whatever BUSY is. -/
def Obligations.ReservedOpSetsErrOnly : Prop :=
  ∀ s : State, exec .wrCtrlRsvdOp s = .next { s with block := { s.block with stErr := true } }

/-- R105, R111, R112, R113: a NOP, and a write to STATUS, RESULT or 0x3, changes nothing, whatever its data. -/
def Obligations.IgnoredWritesChangeNothing : Prop :=
  ∀ s : State, exec .wrCtrlNop s = .next s
    ∧ ∀ v : Byte, exec (.wrStatus v) s = .next s ∧ exec (.wrResult v) s = .next s ∧ exec (.wrRsvd3 v) s = .next s

/-! ### Reads -/

/-- R114, R117: CTRL and 0x3 read 0x00, and reading them changes no state of the block. -/
def Obligations.ReservedReadsReturnZero : Prop :=
  ∀ s : State, exec .rdCtrl s = .next { s with returned := s.returned ++ [0x00] }
    ∧ exec .rdRsvd3 s = .next { s with returned := s.returned ++ [0x00] }

/-- R115: STATUS, bit by bit; no state of the block changes. In the states the invariant allows, DONE and BUSY never hold
together and COL is 0 whenever BUSY is 0. -/
def Obligations.StatusRead : Prop :=
  ∀ s : State, ∃ x : Byte, exec .rdStatus s = .next { s with returned := s.returned ++ [x] }
    ∧ x.getLsbD 7 = false
    ∧ (x.getLsbD 6 = true ↔ s.block.fsm ≠ .idle ∧ s.block.op = .wait ∧ s.block.wph = .release)
    ∧ x.extractLsb' 4 2 = s.block.colIdx
    ∧ x.getLsbD 3 = s.block.stErr ∧ x.getLsbD 2 = s.block.stKey ∧ x.getLsbD 1 = s.block.stDone
    ∧ (x.getLsbD 0 = true ↔ s.block.fsm ≠ .idle)
    ∧ (s.Inv → ¬(x.getLsbD 1 = true ∧ x.getLsbD 0 = true) ∧ (x.getLsbD 0 = false → x.extractLsb' 4 2 = 0#2))

/-- R116: RESULT is `res`, and reading it changes no state of the block; where it is meaningful (`KEY = 1`, in the states
`ResultWordStaysCoherent` speaks of) it is `COL*64 + ROW*16 + SYM` of a key (R62). -/
def Obligations.ResultRead : Prop :=
  ∀ s : State, exec .rdResult s = .next { s with returned := s.returned ++ [s.block.res] }
    ∧ (s.block.ResultCoherent s.params → s.block.stDone = true → s.block.stKey = true →
        ∃ k : Key, s.block.res.toNat = 64 * k.col.toNat + 16 * k.row.toNat + (keySymbol s.params k).toNat)

/-- R48, R49: in every cycle a read returns the value on `bus_rdata`, which without reset is the addressed register's value
before the edge; no other cycle returns anything. (In a reset cycle the pins carry a free value, log entry 9.) -/
def Obligations.ReadsReturnTheBusValue : Prop :=
  (∀ s t : State, step s = .next t →
    t.returned = if s.bus.sel = true ∧ s.bus.we = false then s.returned ++ [s.busRdata] else s.returned)
  ∧ ∀ s : State, s.rstN = true → s.bus.sel = true → s.bus.we = false →
      s.busRdata = (match s.bus.addr.toNat with
        | 1 => s.block.status
        | 2 => s.block.res
        | _ => 0x00)

/-- R120: the cycle right after an accepted start command reads BUSY = 1 and DONE = 0. -/
def Obligations.NoStaleIdleReadAfterStart : Prop :=
  ∀ (s : State) (w w' : Txn) (rest : List HostLine), s.rstN = true → s.nextEnv.rstN = true → s.block.fsm = .idle →
    s.host = .word w :: .word w' :: rest → (decodeWord w = .wrCtrlScanOnce ∨ decodeWord w = .wrCtrlWaitKeypress) →
    decodeWord w' = .rdStatus →
    ∃ t u x, step s = .next t ∧ step t = .next u ∧ u.returned = s.returned ++ [x]
      ∧ x.getLsbD 0 = true ∧ x.getLsbD 1 = false

/-! ### Frames of the transactions -/

/-- The frame of the transactions that store nothing: reads, NOP, and the ignored writes. Every register of the block, every
parameter, pin and script, and every location of the register space are as before (R44, R45); only the list of values returned
to the host may grow. -/
def Obligations.ReadAndIgnoredWriteFrame : Prop :=
  ∀ (i : Instr) (v : Byte) (s t : State),
    i ∈ [.wrCtrlNop, .wrStatus v, .wrResult v, .wrRsvd3 v, .rdCtrl, .rdStatus, .rdResult, .rdRsvd3] →
    exec i s = .next t →
    t.block = s.block ∧ t.params = s.params ∧ t.rstN = s.rstN ∧ t.rows = s.rows ∧ t.rowsHeld = s.rowsHeld
    ∧ t.env = s.env ∧ t.host = s.host ∧ t.cycle = s.cycle
    ∧ (∀ a : RegAddr, t.block.readReg a = s.block.readReg a)
    ∧ (i ∈ [.wrCtrlNop, .wrStatus v, .wrResult v, .wrRsvd3 v] → t.returned = s.returned)

/-- The frame of the command writes. No command writes RESULT, the latched key or the synchroniser, or returns a value, and every
location of the register space but STATUS reads as before. The reserved operation, and a start command while busy, leave every
register but `st_err` (R108, R109). -/
def Obligations.CommandWriteFrame : Prop :=
  ∀ (i : Instr) (s t : State), i ∈ [.wrCtrlScanOnce, .wrCtrlWaitKeypress, .wrCtrlRsvdOp] → exec i s = .next t →
    t.block.res = s.block.res ∧ t.block.prow = s.block.prow ∧ t.block.pcol = s.block.pcol
    ∧ t.block.s1 = s.block.s1 ∧ t.block.s2 = s.block.s2
    ∧ (∀ a : RegAddr, a ≠ 1 → t.block.readReg a = s.block.readReg a)
    ∧ t.params = s.params ∧ t.rstN = s.rstN ∧ t.rows = s.rows ∧ t.rowsHeld = s.rowsHeld ∧ t.env = s.env
    ∧ t.host = s.host ∧ t.returned = s.returned ∧ t.cycle = s.cycle
    ∧ (i = .wrCtrlRsvdOp ∨ s.block.busy = true → t.block = { s.block with stErr := t.block.stErr })

/-- A cycle whose transaction is a NOP, an ignored write or a read leaves the registers exactly as a cycle without a transaction
does: only a start command or the reserved operation has a side effect (R44, R45, R105). -/
def Obligations.IgnoredTransactionsLeaveTheCycleAlone : Prop :=
  ∀ (s : State) (w : Txn) (rest : List HostLine), s.rstN = true → s.block.fsm ≠ .rsvd11 → s.host = .word w :: rest →
    (w &&& 0x700 ≠ 0x400 ∨ w &&& 0x703 = 0x400) →
    ∃ t u, step s = .next t ∧ step { s with host := .nobus 1 :: rest } = .next u
      ∧ t = { u with returned := t.returned }

/-- R124 (2): the write sets of the transaction and of the FSM never overlap: register by register, one of the two leaves it as
it was before the edge, and the edge gives what the other gives. -/
def Obligations.HostAndFsmWriteSetsAreDisjoint : Prop :=
  ∀ (i : Instr) (s t : State) (r : Lines), exec i s = .next t →
    let pre := s.block
    let h := t.block
    let e := s.block.edge s.params r s.block
    let m := t.block.edge s.params r s.block
    (h.fsm = pre.fsm ∧ m.fsm = e.fsm ∨ e.fsm = pre.fsm ∧ m.fsm = h.fsm)
    ∧ (h.op = pre.op ∧ m.op = e.op ∨ e.op = pre.op ∧ m.op = h.op)
    ∧ (h.wph = pre.wph ∧ m.wph = e.wph ∨ e.wph = pre.wph ∧ m.wph = h.wph)
    ∧ (h.colIdx = pre.colIdx ∧ m.colIdx = e.colIdx ∨ e.colIdx = pre.colIdx ∧ m.colIdx = h.colIdx)
    ∧ (h.cnt = pre.cnt ∧ m.cnt = e.cnt ∨ e.cnt = pre.cnt ∧ m.cnt = h.cnt)
    ∧ (h.colN = pre.colN ∧ m.colN = e.colN ∨ e.colN = pre.colN ∧ m.colN = h.colN)
    ∧ (h.s1 = pre.s1 ∧ m.s1 = e.s1 ∨ e.s1 = pre.s1 ∧ m.s1 = h.s1)
    ∧ (h.s2 = pre.s2 ∧ m.s2 = e.s2 ∨ e.s2 = pre.s2 ∧ m.s2 = h.s2)
    ∧ (h.prow = pre.prow ∧ m.prow = e.prow ∨ e.prow = pre.prow ∧ m.prow = h.prow)
    ∧ (h.pcol = pre.pcol ∧ m.pcol = e.pcol ∨ e.pcol = pre.pcol ∧ m.pcol = h.pcol)
    ∧ (h.stDone = pre.stDone ∧ m.stDone = e.stDone ∨ e.stDone = pre.stDone ∧ m.stDone = h.stDone)
    ∧ (h.stKey = pre.stKey ∧ m.stKey = e.stKey ∨ e.stKey = pre.stKey ∧ m.stKey = h.stKey)
    ∧ (h.stErr = pre.stErr ∧ m.stErr = e.stErr ∨ e.stErr = pre.stErr ∧ m.stErr = h.stErr)
    ∧ (h.res = pre.res ∧ m.res = e.res ∨ e.res = pre.res ∧ m.res = h.res)

/-- R124, its worked case: a start command on the edge that completes a scan without a key is rejected while the scan
completes: STATUS reads 0x0A (DONE and ERR) after that edge. -/
def Obligations.StartOnTheCompletionEdgeIsRejected : Prop :=
  ∀ s : State, s.rstN = true → s.block.fsm = .sample → s.block.op = .scan → s.block.colIdx = 3 →
    s.block.s2 = 0b1111 → s.startsNow.isSome = true →
    s.cycleGives fun b => b.status = 0x0A ∧ b.fsm = .idle ∧ b.stDone = true ∧ b.stErr = true

/-! ### The scan phase -/

/-- R70: the settle step, whatever the host does. Within the invariant `cnt` stays below `SETTLE_CYCLES`, fits in `CNT_W` bits
and does not wrap. -/
def Obligations.SettleStep : Prop :=
  ∀ s : State, s.Inv → s.rstN = true → s.block.fsm = .settle →
    s.cycleGives fun b =>
      b.colIdx = s.block.colIdx ∧ b.colN = s.block.colN ∧ b.cnt < s.params.settleCycles
      ∧ b.cnt < 2 ^ cntWidth s.params.settleCycles
      ∧ (if s.block.cnt = s.params.settleCycles - 1 then b.fsm = .sample ∧ b.cnt = s.block.cnt
        else b.fsm = .settle ∧ b.cnt = s.block.cnt + 1)

/-- R85, first case: a miss before column 3 starts the next column's phase at the same edge, with no gap in the drive; nothing
but the phase registers changes by it. -/
def Obligations.MissMovesToTheNextColumn : Prop :=
  ∀ s : State, s.rstN = true → s.block.fsm = .sample → activeRows s.block.s2 = 0 → s.block.colIdx.toNat < 3 →
    s.cycleGives fun b =>
      b.fsm = .settle ∧ b.colIdx.toNat = s.block.colIdx.toNat + 1 ∧ b.cnt = 0
      ∧ b.colN = ~~~(1#4 <<< (s.block.colIdx.toNat + 1))
      ∧ b.op = s.block.op ∧ b.wph = s.block.wph ∧ b.prow = s.block.prow ∧ b.pcol = s.block.pcol
      ∧ b.stDone = s.block.stDone ∧ b.stKey = s.block.stKey ∧ b.res = s.block.res
      ∧ b.stErr = (s.block.stErr || s.rejectsNow)

/-- R87: a `scan_once` that ends completes, with the key of the hit (its least active row, R75) or with no key. `op` and
`pend` are not written, nor is `st_err` by the completion (a write rejected at the same edge sets it). -/
def Obligations.ScanOnceCompletes : Prop :=
  ∀ s : State, s.rstN = true → s.block.fsm = .sample → s.block.op = .scan →
    (activeRows s.block.s2 = 0 → s.block.colIdx = 3 →
      s.cycleGives fun b =>
        b.fsm = .idle ∧ b.colN = 0b1111 ∧ b.colIdx = 0 ∧ b.cnt = 0 ∧ b.wph = .press
        ∧ b.stDone = true ∧ b.stKey = false ∧ b.res = 0x00
        ∧ b.op = s.block.op ∧ b.prow = s.block.prow ∧ b.pcol = s.block.pcol
        ∧ b.stErr = (s.block.stErr || s.rejectsNow))
    ∧ ∀ r : LineIdx, lowestSet (activeRows s.block.s2) = some r →
      s.cycleGives fun b =>
        b.fsm = .idle ∧ b.colN = 0b1111 ∧ b.colIdx = 0 ∧ b.cnt = 0 ∧ b.wph = .press
        ∧ b.stDone = true ∧ b.stKey = true
        ∧ b.res.toNat = 64 * s.block.colIdx.toNat + 16 * r.toNat + (keySymbol s.params ⟨r, s.block.colIdx⟩).toNat
        ∧ b.op = s.block.op ∧ b.prow = s.block.prow ∧ b.pcol = s.block.pcol
        ∧ b.stErr = (s.block.stErr || s.rejectsNow)

/-! ### The debounce FSM -/

/-- R94: a press scan without a key starts the next scan; `wph`, `pend`, flags and `res` are unchanged. -/
def Obligations.PressScanWithoutKeyRepeats : Prop :=
  ∀ s : State, s.rstN = true → s.block.fsm = .sample → s.block.op = .wait → s.block.wph = .press →
    activeRows s.block.s2 = 0 → s.block.colIdx = 3 →
    s.cycleGives fun b => s.startsNextScan b ∧ b.wph = .press ∧ b.prow = s.block.prow ∧ b.pcol = s.block.pcol

/-- R95: a press scan that hits latches the key, enters the release stage and starts the next scan; STATUS.RLS becomes 1. -/
def Obligations.PressScanWithKeyLatches : Prop :=
  ∀ (s : State) (r : LineIdx), s.rstN = true → s.block.fsm = .sample → s.block.op = .wait → s.block.wph = .press →
    lowestSet (activeRows s.block.s2) = some r →
    s.cycleGives fun b => s.startsNextScan b ∧ b.wph = .release ∧ b.prow = r ∧ b.pcol = s.block.colIdx
      ∧ b.status.getLsbD 6 = true

/-- R96, R99: a release scan that hits, whichever key, starts the next scan; the latched key stays. -/
def Obligations.ReleaseScanWithKeyRepeats : Prop :=
  ∀ s : State, s.rstN = true → s.block.fsm = .sample → s.block.op = .wait → s.block.wph = .release →
    activeRows s.block.s2 ≠ 0 →
    s.cycleGives fun b => s.startsNextScan b ∧ b.wph = .release ∧ b.prow = s.block.prow ∧ b.pcol = s.block.pcol

/-- R97: a release scan without a key completes `wait_for_keypress` with the latched key; one such scan is enough. -/
def Obligations.ReleaseScanWithoutKeyCompletes : Prop :=
  ∀ s : State, s.rstN = true → s.block.fsm = .sample → s.block.op = .wait → s.block.wph = .release →
    activeRows s.block.s2 = 0 → s.block.colIdx = 3 →
    s.cycleGives fun b =>
      b.fsm = .idle ∧ b.colN = 0b1111 ∧ b.colIdx = 0 ∧ b.cnt = 0 ∧ b.wph = .press
      ∧ b.stDone = true ∧ b.stKey = true
      ∧ b.res.toNat = 64 * s.block.pcol.toNat + 16 * s.block.prow.toNat
          + (keySymbol s.params ⟨s.block.prow, s.block.pcol⟩).toNat
      ∧ b.op = s.block.op ∧ b.prow = s.block.prow ∧ b.pcol = s.block.pcol
      ∧ b.stErr = (s.block.stErr || s.rejectsNow)

/-! ### Invariants and rules over all transactions -/

/-- The invariant holds in every clean-entry state (R151) of an instance whose parameters are within their constraints, where
STATUS and RESULT read 0x00, no column is driven and the run has read nothing; and `State.reset` is one. -/
def Obligations.ResetMeetsTheInvariant : Prop :=
  (∀ s : State, s.params.wellFormed = true → s.cleanEntry → s.Inv ∧ s.observe s = ⟨0x00, 0x00, 0b1111, []⟩)
  ∧ State.reset.cleanEntry ∧ State.reset.params.wellFormed = true

/-- Every step keeps the invariant. -/
def Obligations.StepKeepsTheInvariant : Prop :=
  ∀ s t : State, s.Inv → step s = .next t → t.Inv

/-- R68: in every cycle no column line is active while idle, and exactly column `col_idx` is during a phase. It holds at reset
and every step keeps it. -/
def Obligations.ColumnLineInvariant : Prop :=
  let drives (b : Block) : Prop := (b.fsm = .idle → b.colN = 0b1111)
    ∧ (b.fsm = .settle ∨ b.fsm = .sample → ∀ c : LineIdx, (b.colN.getLsbD c.toNat = false ↔ c = b.colIdx))
  drives Block.reset ∧ ∀ s t : State, drives s.block → step s = .next t → drives t.block

/-- R35: with KEY set RESULT is `{COL, ROW, SYM}` of a key under the key map, and with DONE and not KEY it is 0x00; reset meets
this and every step keeps it. -/
def Obligations.ResultWordStaysCoherent : Prop :=
  (∀ p : Params, Block.reset.ResultCoherent p)
  ∧ ∀ s t : State, s.block.ResultCoherent s.params → step s = .next t → t.block.ResultCoherent t.params

/-- R35: `res` changes only at a completion edge: the block was in its sample cycle, and after the edge is idle with DONE set. -/
def Obligations.ResultChangesOnlyAtCompletion : Prop :=
  ∀ s t : State, s.rstN = true → step s = .next t → t.rstN = true → t.block.res ≠ s.block.res →
    s.block.fsm = .sample ∧ t.block.fsm = .idle ∧ t.block.stDone = true

/-- R25, R15: the latched key changes only when a press scan hits, and `op` only when a command is accepted. -/
def Obligations.LatchAndOpChangeOnlyByTheirRules : Prop :=
  ∀ s t : State, s.rstN = true → step s = .next t → t.rstN = true →
    (t.block.prow ≠ s.block.prow ∨ t.block.pcol ≠ s.block.pcol →
      s.block.fsm = .sample ∧ s.block.op = .wait ∧ s.block.wph = .press ∧ activeRows s.block.s2 ≠ 0)
    ∧ (t.block.op ≠ s.block.op → s.acceptsNow = true ∧ some t.block.op = s.startsNow)

/-- R32, R33: DONE is set only at a completion edge and cleared only by an accepted command; KEY changes only at those two. -/
def Obligations.DoneAndKeyChangeOnlyByTheirRules : Prop :=
  ∀ s t : State, s.rstN = true → step s = .next t → t.rstN = true →
    (t.block.stDone = true → s.block.stDone = false → s.block.fsm = .sample ∧ t.block.fsm = .idle)
    ∧ (t.block.stDone = false → s.block.stDone = true → s.acceptsNow = true)
    ∧ (t.block.stKey ≠ s.block.stKey →
        (s.acceptsNow = true ∧ t.block.stKey = false) ∨ (s.block.fsm = .sample ∧ t.block.fsm = .idle))
    ∧ (s.acceptsNow = true → t.block.stDone = false ∧ t.block.stKey = false)

/-- R34: ERR is set by a rejected command write, cleared by an accepted command, written by nothing else, and 0 after reset. -/
def Obligations.ErrChangesOnlyByItsRule : Prop :=
  (∀ p : Params, (State.resetWith p).block.stErr = false)
  ∧ ∀ s t : State, s.rstN = true → step s = .next t → t.rstN = true →
    t.block.stErr = if s.acceptsNow then false else s.block.stErr || s.rejectsNow

/-- R150: while a command runs its progress does not depend on the host: two hosts, with whatever scripts, leave the same
registers but for ERR. -/
def Obligations.ProgressDoesNotDependOnTheHost : Prop :=
  ∀ (s : State) (host : List HostLine) (returned : List Byte), s.block.busy = true → s.block.fsm ≠ .rsvd11 →
    ∃ t t', step s = .next t ∧ step { s with host := host, returned := returned } = .next t'
      ∧ { t.block with stErr := false } = { t'.block with stErr := false }

/-- R61: under the premise KEYMAP_BIJECTIVE the symbol tells which key was reported: for registers whose RESULT is coherent (as
`ResultWordStaysCoherent` says of every reachable state) and that have KEY set. -/
def Obligations.SymbolTellsTheKeyUnderBijectiveMap : Prop :=
  ∀ (p : Params) (b b' : Block), keymapBijective p → b.ResultCoherent p → b'.ResultCoherent p →
    b.stKey = true → b'.stKey = true → b.res.extractLsb' 0 4 = b'.res.extractLsb' 0 4 → b.res = b'.res

/-- R66, R65: each read of a `POLL` is returned; the read that shows `BUSY = 0` ends it, and after any other it reads again, once
the `NOBUS` cycles that stand between the two reads have passed. `NOBUS n` is `n` cycles that return nothing. How a script says
how many cycles stand between the reads is the model's choice (log entry 5). -/
def Obligations.PollRepeatsWhileBusy : Prop :=
  (∀ (s : State) (gaps : List Nat) (gap : Nat) (rest : List HostLine), s.rstN = true → s.block.fsm ≠ .rsvd11 →
    s.host = .poll gaps gap :: rest →
    ∃ t, step s = .next t ∧ t.returned = s.returned ++ [s.block.status]
      ∧ t.host = if s.block.fsm = .idle then rest
          else if gaps.headD gap = 0 then .poll gaps.tail gap :: rest
          else .nobus (gaps.headD gap) :: .poll gaps.tail gap :: rest)
  ∧ ∀ (s : State) (n : Nat) (rest : List HostLine), s.block.fsm ≠ .rsvd11 → 1 ≤ n → s.host = .nobus n :: rest →
    s.after n fun t => t.host = rest ∧ t.returned = s.returned

/-! ### Whole phases, scans and commands -/

/-- R69: a phase lasts `SETTLE_CYCLES + 1` cycles, the column driven through all of them, whatever the host does and the rows
carry: from the edge of `StartPhase`, `SETTLE_CYCLES` cycles of SETTLE and then one SAMPLE cycle. The edge after it ends the phase:
the next phase has begun, or the command is complete. -/
def Obligations.PhaseTiming : Prop :=
  ∀ s : State, s.Inv → s.noReset → s.block.fsm = .settle → s.block.cnt = 0 →
    (∀ k, k < s.params.settleCycles →
      s.after k fun t => t.block.fsm = .settle ∧ t.block.colIdx = s.block.colIdx ∧ t.block.colN = s.block.colN)
    ∧ (s.after s.params.settleCycles fun t =>
        t.block.fsm = .sample ∧ t.block.colIdx = s.block.colIdx ∧ t.block.colN = s.block.colN)
    ∧ s.after (s.params.settleCycles + 1) fun t =>
        (t.block.fsm = .settle ∧ t.block.cnt = 0) ∨ (t.block.fsm = .idle ∧ t.block.stDone = true)

/-- R72: the value a phase samples is the row level captured at edge `E + SETTLE_CYCLES - 1`, `E` being the edge that started
the phase. -/
def Obligations.SampleAge : Prop :=
  ∀ s : State, s.Inv → s.noReset → s.block.fsm = .settle → s.block.cnt = 0 →
    ∃ u t, runCycles (s.params.settleCycles - 2) s = .next u ∧ runCycles s.params.settleCycles s = .next t
      ∧ t.block.fsm = .sample ∧ t.block.s2 = u.rowN

/-- R73, the IDEAL case: a clean keypad with at most one key pressed, held since the column was driven, on a board that meets the
settle constraint: in the cycle whose edge captures the phase's sample, the row lines are low exactly for the pressed key of the
driven column. -/
def Obligations.IdealKeypadRows : Prop :=
  ∀ (s : State) (pressed : Option Key), s.Inv → s.rows = .keypad pressed → settleConstraint s.params = true →
    s.block.fsm = .settle → s.block.cnt + 2 = s.params.settleCycles → s.block.cnt ≤ s.rowsHeld →
    activeRows s.rowN = (match pressed with
      | some k => if k.col = s.block.colIdx then 1#4 <<< k.row.toNat else 0
      | none => 0)

/-- R80, as the model has it (log entry 7): where the settle constraint fails, the captured level is a free value, whatever key
is pressed. -/
def Obligations.SettleViolationLeavesTheSampleFree : Prop :=
  ∀ (s : State) (pressed : Option Key), s.rows = .keypad pressed → settleConstraint s.params = false →
    s.block.fsm = .settle → s.block.cnt + 2 = s.params.settleCycles → s.rowN = Config.freeRow s.cycle

/-- R83, R87, R88: whatever the row lines carry and the host does, `SCAN_ONCE` runs its phases in column order, samples some
`a0`, `a1`, ..., and after exactly as many phases as R88 says completes with the scan result R83 gives for them. It cannot
hang. (The samples of phases that are not run are arbitrary, and do not matter.) -/
def Obligations.ScanOnceReportsTheFirstHit : Prop :=
  ∀ s : State, s.Inv → s.noReset → s.block.fsm = .idle → s.transaction = some .wrCtrlScanOnce →
    ∃ a0 a1 a2 a3 : Lines,
      let out := scanResult s.params a0 a1 a2 a3
      (∀ j : Nat, j < scanPhases out →
        s.after (1 + j * (s.params.settleCycles + 1) + s.params.settleCycles) fun t =>
          t.block.fsm = .sample ∧ t.block.colIdx.toNat = j ∧ some (activeRows t.block.s2) = [a0, a1, a2, a3][j]?
          ∧ t.block.stDone = false)
      ∧ s.after (1 + scanPhases out * (s.params.settleCycles + 1)) fun t =>
          t.block.fsm = .idle ∧ t.block.stDone = true
          ∧ (match out with
            | .hit k sym => t.block.stKey = true ∧ t.block.res = resultWord k sym
            | .noKey => t.block.stKey = false ∧ t.block.res = 0x00)

/-- R90, R91: `SCAN_ONCE` on one key held clean through the scan, whatever the host does meanwhile. Column `j` of `0..c` is
driven in cycles `j*(S+1)` to `j*(S+1) + S` after the accepting edge, its sample shows the key's row in column `c` and none
before, and the command completes at `e_((c+1)(S+1))` with the key. -/
def Obligations.ScanOnceFindsTheHeldKey : Prop :=
  ∀ (s : State) (k : Key), s.Inv → s.steady → s.rows = .keypad (some k) → settleConstraint s.params = true →
    s.block.fsm = .idle → s.transaction = some .wrCtrlScanOnce →
    (∀ j i : Nat, j ≤ k.col.toNat → i ≤ s.params.settleCycles →
      s.after (1 + j * (s.params.settleCycles + 1) + i) fun t =>
        t.block.colIdx.toNat = j ∧ t.block.colN = ~~~(1#4 <<< j) ∧ t.block.busy = true ∧ t.block.stDone = false
        ∧ (i = s.params.settleCycles →
            t.block.fsm = .sample ∧ activeRows t.block.s2 = if j = k.col.toNat then 1#4 <<< k.row.toNat else 0))
    ∧ s.after (1 + (k.col.toNat + 1) * (s.params.settleCycles + 1)) fun t =>
        t.block.fsm = .idle ∧ t.block.colN = 0b1111 ∧ t.block.stDone = true ∧ t.block.stKey = true
        ∧ t.block.res.toNat = 64 * k.col.toNat + 16 * k.row.toNat + (keySymbol s.params k).toNat

/-- R89, R149: `SCAN_ONCE` on an idle keypad: every phase samples no active row, and the command completes at `e_(4(S+1))` with
no key and RESULT 0x00. -/
def Obligations.ScanOnceOnAnIdleKeypad : Prop :=
  ∀ s : State, s.Inv → s.steady → s.rows = .keypad none → settleConstraint s.params = true →
    s.block.fsm = .idle → s.transaction = some .wrCtrlScanOnce →
    (∀ j : Nat, j < 4 →
      s.after (1 + j * (s.params.settleCycles + 1) + s.params.settleCycles) fun t =>
        t.block.fsm = .sample ∧ t.block.colIdx.toNat = j ∧ activeRows t.block.s2 = 0 ∧ t.block.stDone = false)
    ∧ s.after (1 + 4 * (s.params.settleCycles + 1)) fun t =>
        t.block.fsm = .idle ∧ t.block.stDone = true ∧ t.block.stKey = false ∧ t.block.res = 0x00

/-- R95 over a whole scan: `WAIT_KEYPRESS` on one key held clean: the press is detected at `e_((c+1)(S+1))`, where the key is
latched, the release stage begins with a scan from column 0, and the host sees RLS and no result yet. -/
def Obligations.WaitDetectsTheHeldKey : Prop :=
  ∀ (s : State) (k : Key), s.Inv → s.steady → s.rows = .keypad (some k) → settleConstraint s.params = true →
    s.block.fsm = .idle → s.transaction = some .wrCtrlWaitKeypress →
    s.after (1 + (k.col.toNat + 1) * (s.params.settleCycles + 1)) fun t =>
      t.block.fsm = .settle ∧ t.block.colIdx = 0 ∧ t.block.cnt = 0 ∧ t.block.op = .wait ∧ t.block.wph = .release
      ∧ t.block.prow = k.row ∧ t.block.pcol = k.col ∧ t.block.rls = true ∧ t.block.stDone = false
      ∧ t.block.res = s.block.res

/-- R97 over a whole scan, R98: once the release stage begins a scan with no key pressed, the command completes `4(S+1)` cycles
later and reports the latched key. -/
def Obligations.WaitReportsTheLatchedKeyOnRelease : Prop :=
  ∀ s : State, s.Inv → s.steady → s.rows = .keypad none → settleConstraint s.params = true →
    s.block.fsm = .settle → s.block.colIdx = 0 → s.block.cnt = 0 → s.block.op = .wait → s.block.wph = .release →
    s.after (4 * (s.params.settleCycles + 1)) fun t =>
      t.block.fsm = .idle ∧ t.block.stDone = true ∧ t.block.stKey = true
      ∧ t.block.res.toNat = 64 * s.block.pcol.toNat + 16 * s.block.prow.toNat
          + (keySymbol s.params ⟨s.block.prow, s.block.pcol⟩).toNat

/-- R101, R102: `WAIT_KEYPRESS` never completes while no key is ever pressed, nor while one key stays pressed: after any number
of cycles the block is still busy. -/
def Obligations.WaitNeverCompletesWithoutPressAndRelease : Prop :=
  ∀ (s : State) (pressed : Option Key), s.Inv → s.steady → s.rows = .keypad pressed → settleConstraint s.params = true →
    s.block.fsm = .idle → s.transaction = some .wrCtrlWaitKeypress →
    ∀ n : Nat, s.after (n + 1) fun t => t.block.busy = true ∧ t.block.stDone = false ∧ t.block.res = s.block.res

/-- R147: row line `r` stuck active, the other row lines free in every cycle. With `r'` the least active row captured in column 0
(so at most `r`), `SCAN_ONCE` reports key `(r', 0)` at `e_(S+1)`; `WAIT_KEYPRESS` detects it there, and never completes nor leaves
column 0. -/
def Obligations.StuckActiveRow : Prop :=
  ∀ (s : State) (r : LineIdx), s.Inv → s.noReset → s.stuckActive r → s.block.fsm = .idle →
    (s.transaction = some .wrCtrlScanOnce →
      ∃ (u : State) (r' : LineIdx), runCycles (1 + (s.params.settleCycles - 2)) s = .next u
        ∧ lowestSet (activeRows u.rowN) = some r' ∧ r'.toNat ≤ r.toNat
        ∧ s.after (1 + (s.params.settleCycles + 1)) fun t =>
            t.block.fsm = .idle ∧ t.block.stDone = true ∧ t.block.stKey = true
            ∧ t.block.res.toNat = 16 * r'.toNat + (keySymbol s.params ⟨r', 0⟩).toNat)
    ∧ (s.transaction = some .wrCtrlWaitKeypress →
      (∃ (u : State) (r' : LineIdx), runCycles (1 + (s.params.settleCycles - 2)) s = .next u
        ∧ lowestSet (activeRows u.rowN) = some r' ∧ r'.toNat ≤ r.toNat
        ∧ s.after (1 + (s.params.settleCycles + 1)) fun t =>
            t.block.rls = true ∧ t.block.prow = r' ∧ t.block.pcol = 0)
      ∧ ∀ n : Nat, s.after (n + 1) fun t => t.block.busy = true ∧ t.block.stDone = false ∧ t.block.colIdx = 0)
end

