-- ==== Sys2Proof/Laws/State.lean ====
section
/-! SUPPORT. What each shared update leaves in each field, so that no later proof unfolds a record update. -/

namespace Sys2Proof.Machine

@[simp] theorem startPhase_fsm (c : LineIdx) (b : Block) : (b.startPhase c).fsm = .settle := rfl
@[simp] theorem startPhase_op (c : LineIdx) (b : Block) : (b.startPhase c).op = b.op := rfl
@[simp] theorem startPhase_wph (c : LineIdx) (b : Block) : (b.startPhase c).wph = b.wph := rfl
@[simp] theorem startPhase_colIdx (c : LineIdx) (b : Block) : (b.startPhase c).colIdx = c := rfl
@[simp] theorem startPhase_cnt (c : LineIdx) (b : Block) : (b.startPhase c).cnt = 0 := rfl
@[simp] theorem startPhase_colN (c : LineIdx) (b : Block) : (b.startPhase c).colN = driveColumn c := rfl
@[simp] theorem startPhase_s1 (c : LineIdx) (b : Block) : (b.startPhase c).s1 = b.s1 := rfl
@[simp] theorem startPhase_s2 (c : LineIdx) (b : Block) : (b.startPhase c).s2 = b.s2 := rfl
@[simp] theorem startPhase_prow (c : LineIdx) (b : Block) : (b.startPhase c).prow = b.prow := rfl
@[simp] theorem startPhase_pcol (c : LineIdx) (b : Block) : (b.startPhase c).pcol = b.pcol := rfl
@[simp] theorem startPhase_stDone (c : LineIdx) (b : Block) : (b.startPhase c).stDone = b.stDone := rfl
@[simp] theorem startPhase_stKey (c : LineIdx) (b : Block) : (b.startPhase c).stKey = b.stKey := rfl
@[simp] theorem startPhase_stErr (c : LineIdx) (b : Block) : (b.startPhase c).stErr = b.stErr := rfl
@[simp] theorem startPhase_res (c : LineIdx) (b : Block) : (b.startPhase c).res = b.res := rfl

@[simp] theorem startScan_fsm (b : Block) : (b.startScan).fsm = .settle := rfl
@[simp] theorem startScan_op (b : Block) : (b.startScan).op = b.op := rfl
@[simp] theorem startScan_wph (b : Block) : (b.startScan).wph = b.wph := rfl
@[simp] theorem startScan_colIdx (b : Block) : (b.startScan).colIdx = 0 := rfl
@[simp] theorem startScan_cnt (b : Block) : (b.startScan).cnt = 0 := rfl
@[simp] theorem startScan_colN (b : Block) : (b.startScan).colN = driveColumn 0 := rfl
@[simp] theorem startScan_s1 (b : Block) : (b.startScan).s1 = b.s1 := rfl
@[simp] theorem startScan_s2 (b : Block) : (b.startScan).s2 = b.s2 := rfl
@[simp] theorem startScan_prow (b : Block) : (b.startScan).prow = b.prow := rfl
@[simp] theorem startScan_pcol (b : Block) : (b.startScan).pcol = b.pcol := rfl
@[simp] theorem startScan_stDone (b : Block) : (b.startScan).stDone = b.stDone := rfl
@[simp] theorem startScan_stKey (b : Block) : (b.startScan).stKey = b.stKey := rfl
@[simp] theorem startScan_stErr (b : Block) : (b.startScan).stErr = b.stErr := rfl
@[simp] theorem startScan_res (b : Block) : (b.startScan).res = b.res := rfl

@[simp] theorem accept_fsm (o : Op) (b : Block) : (b.accept o).fsm = .settle := rfl
@[simp] theorem accept_op (o : Op) (b : Block) : (b.accept o).op = o := rfl
@[simp] theorem accept_wph (o : Op) (b : Block) : (b.accept o).wph = .press := rfl
@[simp] theorem accept_colIdx (o : Op) (b : Block) : (b.accept o).colIdx = 0 := rfl
@[simp] theorem accept_cnt (o : Op) (b : Block) : (b.accept o).cnt = 0 := rfl
@[simp] theorem accept_colN (o : Op) (b : Block) : (b.accept o).colN = driveColumn 0 := rfl
@[simp] theorem accept_s1 (o : Op) (b : Block) : (b.accept o).s1 = b.s1 := rfl
@[simp] theorem accept_s2 (o : Op) (b : Block) : (b.accept o).s2 = b.s2 := rfl
@[simp] theorem accept_prow (o : Op) (b : Block) : (b.accept o).prow = b.prow := rfl
@[simp] theorem accept_pcol (o : Op) (b : Block) : (b.accept o).pcol = b.pcol := rfl
@[simp] theorem accept_stDone (o : Op) (b : Block) : (b.accept o).stDone = false := rfl
@[simp] theorem accept_stKey (o : Op) (b : Block) : (b.accept o).stKey = false := rfl
@[simp] theorem accept_stErr (o : Op) (b : Block) : (b.accept o).stErr = false := rfl
@[simp] theorem accept_res (o : Op) (b : Block) : (b.accept o).res = b.res := rfl

@[simp] theorem reject_fsm (b : Block) : (b.reject).fsm = b.fsm := rfl
@[simp] theorem reject_op (b : Block) : (b.reject).op = b.op := rfl
@[simp] theorem reject_wph (b : Block) : (b.reject).wph = b.wph := rfl
@[simp] theorem reject_colIdx (b : Block) : (b.reject).colIdx = b.colIdx := rfl
@[simp] theorem reject_cnt (b : Block) : (b.reject).cnt = b.cnt := rfl
@[simp] theorem reject_colN (b : Block) : (b.reject).colN = b.colN := rfl
@[simp] theorem reject_s1 (b : Block) : (b.reject).s1 = b.s1 := rfl
@[simp] theorem reject_s2 (b : Block) : (b.reject).s2 = b.s2 := rfl
@[simp] theorem reject_prow (b : Block) : (b.reject).prow = b.prow := rfl
@[simp] theorem reject_pcol (b : Block) : (b.reject).pcol = b.pcol := rfl
@[simp] theorem reject_stDone (b : Block) : (b.reject).stDone = b.stDone := rfl
@[simp] theorem reject_stKey (b : Block) : (b.reject).stKey = b.stKey := rfl
@[simp] theorem reject_stErr (b : Block) : (b.reject).stErr = true := rfl
@[simp] theorem reject_res (b : Block) : (b.reject).res = b.res := rfl

@[simp] theorem toIdle_fsm (b : Block) : (b.toIdle).fsm = .idle := rfl
@[simp] theorem toIdle_op (b : Block) : (b.toIdle).op = b.op := rfl
@[simp] theorem toIdle_wph (b : Block) : (b.toIdle).wph = .press := rfl
@[simp] theorem toIdle_colIdx (b : Block) : (b.toIdle).colIdx = 0 := rfl
@[simp] theorem toIdle_cnt (b : Block) : (b.toIdle).cnt = 0 := rfl
@[simp] theorem toIdle_colN (b : Block) : (b.toIdle).colN = noColumn := rfl
@[simp] theorem toIdle_s1 (b : Block) : (b.toIdle).s1 = b.s1 := rfl
@[simp] theorem toIdle_s2 (b : Block) : (b.toIdle).s2 = b.s2 := rfl
@[simp] theorem toIdle_prow (b : Block) : (b.toIdle).prow = b.prow := rfl
@[simp] theorem toIdle_pcol (b : Block) : (b.toIdle).pcol = b.pcol := rfl
@[simp] theorem toIdle_stDone (b : Block) : (b.toIdle).stDone = true := rfl
@[simp] theorem toIdle_stKey (b : Block) : (b.toIdle).stKey = b.stKey := rfl
@[simp] theorem toIdle_stErr (b : Block) : (b.toIdle).stErr = b.stErr := rfl
@[simp] theorem toIdle_res (b : Block) : (b.toIdle).res = b.res := rfl

@[simp] theorem complete_noKey_fsm (b : Block) : (b.complete .noKey).fsm = .idle := rfl
@[simp] theorem complete_noKey_op (b : Block) : (b.complete .noKey).op = b.op := rfl
@[simp] theorem complete_noKey_wph (b : Block) : (b.complete .noKey).wph = .press := rfl
@[simp] theorem complete_noKey_colIdx (b : Block) : (b.complete .noKey).colIdx = 0 := rfl
@[simp] theorem complete_noKey_cnt (b : Block) : (b.complete .noKey).cnt = 0 := rfl
@[simp] theorem complete_noKey_colN (b : Block) : (b.complete .noKey).colN = noColumn := rfl
@[simp] theorem complete_noKey_s1 (b : Block) : (b.complete .noKey).s1 = b.s1 := rfl
@[simp] theorem complete_noKey_s2 (b : Block) : (b.complete .noKey).s2 = b.s2 := rfl
@[simp] theorem complete_noKey_prow (b : Block) : (b.complete .noKey).prow = b.prow := rfl
@[simp] theorem complete_noKey_pcol (b : Block) : (b.complete .noKey).pcol = b.pcol := rfl
@[simp] theorem complete_noKey_stDone (b : Block) : (b.complete .noKey).stDone = true := rfl
@[simp] theorem complete_noKey_stKey (b : Block) : (b.complete .noKey).stKey = false := rfl
@[simp] theorem complete_noKey_stErr (b : Block) : (b.complete .noKey).stErr = b.stErr := rfl
@[simp] theorem complete_noKey_res (b : Block) : (b.complete .noKey).res = 0x00 := rfl

@[simp] theorem complete_hit_fsm (k : Key) (sym : SymCode) (b : Block) : (b.complete (.hit k sym)).fsm = .idle := rfl
@[simp] theorem complete_hit_op (k : Key) (sym : SymCode) (b : Block) : (b.complete (.hit k sym)).op = b.op := rfl
@[simp] theorem complete_hit_wph (k : Key) (sym : SymCode) (b : Block) : (b.complete (.hit k sym)).wph = .press := rfl
@[simp] theorem complete_hit_colIdx (k : Key) (sym : SymCode) (b : Block) : (b.complete (.hit k sym)).colIdx = 0 := rfl
@[simp] theorem complete_hit_cnt (k : Key) (sym : SymCode) (b : Block) : (b.complete (.hit k sym)).cnt = 0 := rfl
@[simp] theorem complete_hit_colN (k : Key) (sym : SymCode) (b : Block) : (b.complete (.hit k sym)).colN = noColumn := rfl
@[simp] theorem complete_hit_s1 (k : Key) (sym : SymCode) (b : Block) : (b.complete (.hit k sym)).s1 = b.s1 := rfl
@[simp] theorem complete_hit_s2 (k : Key) (sym : SymCode) (b : Block) : (b.complete (.hit k sym)).s2 = b.s2 := rfl
@[simp] theorem complete_hit_prow (k : Key) (sym : SymCode) (b : Block) : (b.complete (.hit k sym)).prow = b.prow := rfl
@[simp] theorem complete_hit_pcol (k : Key) (sym : SymCode) (b : Block) : (b.complete (.hit k sym)).pcol = b.pcol := rfl
@[simp] theorem complete_hit_stDone (k : Key) (sym : SymCode) (b : Block) : (b.complete (.hit k sym)).stDone = true := rfl
@[simp] theorem complete_hit_stKey (k : Key) (sym : SymCode) (b : Block) : (b.complete (.hit k sym)).stKey = true := rfl
@[simp] theorem complete_hit_stErr (k : Key) (sym : SymCode) (b : Block) : (b.complete (.hit k sym)).stErr = b.stErr := rfl
@[simp] theorem complete_hit_res (k : Key) (sym : SymCode) (b : Block) : (b.complete (.hit k sym)).res = resultWord k sym := rfl

@[simp] theorem completeWait_fsm (p : Params) (b pre : Block) : (b.completeWait p pre).fsm = .idle := rfl
@[simp] theorem completeWait_op (p : Params) (b pre : Block) : (b.completeWait p pre).op = b.op := rfl
@[simp] theorem completeWait_wph (p : Params) (b pre : Block) : (b.completeWait p pre).wph = .press := rfl
@[simp] theorem completeWait_colIdx (p : Params) (b pre : Block) : (b.completeWait p pre).colIdx = 0 := rfl
@[simp] theorem completeWait_cnt (p : Params) (b pre : Block) : (b.completeWait p pre).cnt = 0 := rfl
@[simp] theorem completeWait_colN (p : Params) (b pre : Block) : (b.completeWait p pre).colN = noColumn := rfl
@[simp] theorem completeWait_s1 (p : Params) (b pre : Block) : (b.completeWait p pre).s1 = b.s1 := rfl
@[simp] theorem completeWait_s2 (p : Params) (b pre : Block) : (b.completeWait p pre).s2 = b.s2 := rfl
@[simp] theorem completeWait_prow (p : Params) (b pre : Block) : (b.completeWait p pre).prow = b.prow := rfl
@[simp] theorem completeWait_pcol (p : Params) (b pre : Block) : (b.completeWait p pre).pcol = b.pcol := rfl
@[simp] theorem completeWait_stDone (p : Params) (b pre : Block) : (b.completeWait p pre).stDone = true := rfl
@[simp] theorem completeWait_stKey (p : Params) (b pre : Block) : (b.completeWait p pre).stKey = true := rfl
@[simp] theorem completeWait_stErr (p : Params) (b pre : Block) : (b.completeWait p pre).stErr = b.stErr := rfl
@[simp] theorem completeWait_res (p : Params) (b pre : Block) : (b.completeWait p pre).res = resultWord ⟨pre.prow, pre.pcol⟩ (keySymbol p ⟨pre.prow, pre.pcol⟩) := rfl

@[simp] theorem latchPress_fsm (k : Key) (b : Block) : (b.latchPress k).fsm = .settle := rfl
@[simp] theorem latchPress_op (k : Key) (b : Block) : (b.latchPress k).op = b.op := rfl
@[simp] theorem latchPress_wph (k : Key) (b : Block) : (b.latchPress k).wph = .release := rfl
@[simp] theorem latchPress_colIdx (k : Key) (b : Block) : (b.latchPress k).colIdx = 0 := rfl
@[simp] theorem latchPress_cnt (k : Key) (b : Block) : (b.latchPress k).cnt = 0 := rfl
@[simp] theorem latchPress_colN (k : Key) (b : Block) : (b.latchPress k).colN = driveColumn 0 := rfl
@[simp] theorem latchPress_s1 (k : Key) (b : Block) : (b.latchPress k).s1 = b.s1 := rfl
@[simp] theorem latchPress_s2 (k : Key) (b : Block) : (b.latchPress k).s2 = b.s2 := rfl
@[simp] theorem latchPress_prow (k : Key) (b : Block) : (b.latchPress k).prow = k.row := rfl
@[simp] theorem latchPress_pcol (k : Key) (b : Block) : (b.latchPress k).pcol = k.col := rfl
@[simp] theorem latchPress_stDone (k : Key) (b : Block) : (b.latchPress k).stDone = b.stDone := rfl
@[simp] theorem latchPress_stKey (k : Key) (b : Block) : (b.latchPress k).stKey = b.stKey := rfl
@[simp] theorem latchPress_stErr (k : Key) (b : Block) : (b.latchPress k).stErr = b.stErr := rfl
@[simp] theorem latchPress_res (k : Key) (b : Block) : (b.latchPress k).res = b.res := rfl

@[simp] theorem rowSync_fsm (r : Lines) (b pre : Block) : (b.rowSync r pre).fsm = b.fsm := rfl
@[simp] theorem rowSync_op (r : Lines) (b pre : Block) : (b.rowSync r pre).op = b.op := rfl
@[simp] theorem rowSync_wph (r : Lines) (b pre : Block) : (b.rowSync r pre).wph = b.wph := rfl
@[simp] theorem rowSync_colIdx (r : Lines) (b pre : Block) : (b.rowSync r pre).colIdx = b.colIdx := rfl
@[simp] theorem rowSync_cnt (r : Lines) (b pre : Block) : (b.rowSync r pre).cnt = b.cnt := rfl
@[simp] theorem rowSync_colN (r : Lines) (b pre : Block) : (b.rowSync r pre).colN = b.colN := rfl
@[simp] theorem rowSync_s1 (r : Lines) (b pre : Block) : (b.rowSync r pre).s1 = r := rfl
@[simp] theorem rowSync_s2 (r : Lines) (b pre : Block) : (b.rowSync r pre).s2 = pre.s1 := rfl
@[simp] theorem rowSync_prow (r : Lines) (b pre : Block) : (b.rowSync r pre).prow = b.prow := rfl
@[simp] theorem rowSync_pcol (r : Lines) (b pre : Block) : (b.rowSync r pre).pcol = b.pcol := rfl
@[simp] theorem rowSync_stDone (r : Lines) (b pre : Block) : (b.rowSync r pre).stDone = b.stDone := rfl
@[simp] theorem rowSync_stKey (r : Lines) (b pre : Block) : (b.rowSync r pre).stKey = b.stKey := rfl
@[simp] theorem rowSync_stErr (r : Lines) (b pre : Block) : (b.rowSync r pre).stErr = b.stErr := rfl
@[simp] theorem rowSync_res (r : Lines) (b pre : Block) : (b.rowSync r pre).res = b.res := rfl

@[simp] theorem hostRead_block (a : RegAddr) (s : State) : (s.hostRead a).block = s.block := rfl
@[simp] theorem hostRead_params (a : RegAddr) (s : State) : (s.hostRead a).params = s.params := rfl
@[simp] theorem hostRead_rstN (a : RegAddr) (s : State) : (s.hostRead a).rstN = s.rstN := rfl
@[simp] theorem hostRead_rows (a : RegAddr) (s : State) : (s.hostRead a).rows = s.rows := rfl
@[simp] theorem hostRead_rowsHeld (a : RegAddr) (s : State) : (s.hostRead a).rowsHeld = s.rowsHeld := rfl
@[simp] theorem hostRead_env (a : RegAddr) (s : State) : (s.hostRead a).env = s.env := rfl
@[simp] theorem hostRead_host (a : RegAddr) (s : State) : (s.hostRead a).host = s.host := rfl
@[simp] theorem hostRead_returned (a : RegAddr) (s : State) : (s.hostRead a).returned = s.returned ++ [s.block.readReg a] := rfl
@[simp] theorem hostRead_cycle (a : RegAddr) (s : State) : (s.hostRead a).cycle = s.cycle := rfl

@[simp] theorem startCommand_block (o : Op) (s : State) : (s.startCommand o).block = if s.block.busy then s.block.reject else s.block.accept o := rfl
@[simp] theorem startCommand_params (o : Op) (s : State) : (s.startCommand o).params = s.params := rfl
@[simp] theorem startCommand_rstN (o : Op) (s : State) : (s.startCommand o).rstN = s.rstN := rfl
@[simp] theorem startCommand_rows (o : Op) (s : State) : (s.startCommand o).rows = s.rows := rfl
@[simp] theorem startCommand_rowsHeld (o : Op) (s : State) : (s.startCommand o).rowsHeld = s.rowsHeld := rfl
@[simp] theorem startCommand_env (o : Op) (s : State) : (s.startCommand o).env = s.env := rfl
@[simp] theorem startCommand_host (o : Op) (s : State) : (s.startCommand o).host = s.host := rfl
@[simp] theorem startCommand_returned (o : Op) (s : State) : (s.startCommand o).returned = s.returned := rfl
@[simp] theorem startCommand_cycle (o : Op) (s : State) : (s.startCommand o).cycle = s.cycle := rfl

@[simp] theorem withWord_block (t : Txn) (s : State) : (s.withWord t).block = s.block := rfl
@[simp] theorem withWord_params (t : Txn) (s : State) : (s.withWord t).params = s.params := rfl
@[simp] theorem withWord_rstN (t : Txn) (s : State) : (s.withWord t).rstN = true := rfl
@[simp] theorem withWord_rows (t : Txn) (s : State) : (s.withWord t).rows = s.rows := rfl
@[simp] theorem withWord_rowsHeld (t : Txn) (s : State) : (s.withWord t).rowsHeld = s.rowsHeld := rfl
@[simp] theorem withWord_env (t : Txn) (s : State) : (s.withWord t).env = s.env := rfl
@[simp] theorem withWord_host (t : Txn) (s : State) : (s.withWord t).host = .word t :: s.host := rfl
@[simp] theorem withWord_returned (t : Txn) (s : State) : (s.withWord t).returned = s.returned := rfl
@[simp] theorem withWord_cycle (t : Txn) (s : State) : (s.withWord t).cycle = s.cycle := rfl

@[simp] theorem nextCycle_block (pre s : State) : (nextCycle pre s).block = if pre.nextEnv.rstN then s.block else Block.reset := rfl
@[simp] theorem nextCycle_params (pre s : State) : (nextCycle pre s).params = s.params := rfl
@[simp] theorem nextCycle_rstN (pre s : State) : (nextCycle pre s).rstN = pre.nextEnv.rstN := rfl
@[simp] theorem nextCycle_rows (pre s : State) : (nextCycle pre s).rows = pre.nextEnv.rows := rfl
@[simp] theorem nextCycle_rowsHeld (pre s : State) : (nextCycle pre s).rowsHeld = if pre.nextEnv.rows = pre.rows then pre.rowsHeld + 1 else 0 := rfl
@[simp] theorem nextCycle_env (pre s : State) : (nextCycle pre s).env = pre.env.tail := rfl
@[simp] theorem nextCycle_host (pre s : State) : (nextCycle pre s).host = hostAfter pre.busRdata pre.host := rfl
@[simp] theorem nextCycle_returned (pre s : State) : (nextCycle pre s).returned = s.returned := rfl
@[simp] theorem nextCycle_cycle (pre s : State) : (nextCycle pre s).cycle = pre.cycle + 1 := rfl

@[simp] theorem clockEdge_block (pre s : State) : (clockEdge pre s).block = if pre.nextEnv.rstN then s.block.edge pre.params pre.rowN pre.block else Block.reset := rfl
@[simp] theorem clockEdge_params (pre s : State) : (clockEdge pre s).params = s.params := rfl
@[simp] theorem clockEdge_rstN (pre s : State) : (clockEdge pre s).rstN = pre.nextEnv.rstN := rfl
@[simp] theorem clockEdge_rows (pre s : State) : (clockEdge pre s).rows = pre.nextEnv.rows := rfl
@[simp] theorem clockEdge_rowsHeld (pre s : State) : (clockEdge pre s).rowsHeld = if pre.nextEnv.rows = pre.rows then pre.rowsHeld + 1 else 0 := rfl
@[simp] theorem clockEdge_env (pre s : State) : (clockEdge pre s).env = pre.env.tail := rfl
@[simp] theorem clockEdge_host (pre s : State) : (clockEdge pre s).host = hostAfter pre.busRdata pre.host := rfl
@[simp] theorem clockEdge_returned (pre s : State) : (clockEdge pre s).returned = s.returned := rfl
@[simp] theorem clockEdge_cycle (pre s : State) : (clockEdge pre s).cycle = pre.cycle + 1 := rfl

@[simp] theorem resetCycle_block (s : State) : (resetCycle s).block = if s.nextEnv.rstN then Block.reset else Block.reset := rfl
@[simp] theorem resetCycle_params (s : State) : (resetCycle s).params = s.params := rfl
@[simp] theorem resetCycle_rstN (s : State) : (resetCycle s).rstN = s.nextEnv.rstN := rfl
@[simp] theorem resetCycle_rows (s : State) : (resetCycle s).rows = s.nextEnv.rows := rfl
@[simp] theorem resetCycle_rowsHeld (s : State) : (resetCycle s).rowsHeld = if s.nextEnv.rows = s.rows then s.rowsHeld + 1 else 0 := rfl
@[simp] theorem resetCycle_env (s : State) : (resetCycle s).env = s.env.tail := rfl
@[simp] theorem resetCycle_host (s : State) : (resetCycle s).host = hostAfter s.busRdata s.host := rfl
@[simp] theorem resetCycle_returned (s : State) : (resetCycle s).returned = if s.bus.sel && !s.bus.we then s.returned ++ [s.busRdata] else s.returned := rfl
@[simp] theorem resetCycle_cycle (s : State) : (resetCycle s).cycle = s.cycle + 1 := rfl

end Sys2Proof.Machine
end

