-- ==== Sys2Proof/Laws/Ops.lean ====
section
/-! SUPPORT. What each shared operation can do, said once: the transaction, the FSM's step, the settle counter. -/

namespace Sys2Proof.Machine

/-! ### The transaction -/

/-- No transaction has an error outcome (R121). -/
theorem exec_answers (i : Instr) (s : State) : ∃ t, exec i s = .next t := by
  cases i <;> exact ⟨_, rfl⟩

/-- What a transaction does to the block's registers. -/
def hostBlock (i : Instr) (b : Block) : Block :=
  match i with
  | .wrCtrlScanOnce => if b.busy then b.reject else b.accept .scan
  | .wrCtrlWaitKeypress => if b.busy then b.reject else b.accept .wait
  | .wrCtrlRsvdOp => b.reject
  | .wrCtrlNop | .wrStatus _ | .wrResult _ | .wrRsvd3 _ => b
  | .rdCtrl | .rdStatus | .rdResult | .rdRsvd3 => b

theorem exec_block {i : Instr} {s t : State} (h : exec i s = .next t) : t.block = hostBlock i s.block := by
  cases i <;> cases h <;> rfl

/-- A transaction touches nothing but the registers and the host's list of read values. -/
theorem exec_agents {i : Instr} {s t : State} (h : exec i s = .next t) :
    t.params = s.params ∧ t.rstN = s.rstN ∧ t.rows = s.rows ∧ t.rowsHeld = s.rowsHeld ∧ t.env = s.env
      ∧ t.host = s.host ∧ t.cycle = s.cycle := by
  cases i <;> cases h <;> exact ⟨rfl, rfl, rfl, rfl, rfl, rfl, rfl⟩

/-- The three things a transaction can do to the registers; it starts a command only from idle (R110). -/
theorem hostBlock_cases (i : Instr) (b : Block) :
    hostBlock i b = b ∨ hostBlock i b = b.reject ∨ (b.fsm = .idle ∧ ∃ o, hostBlock i b = b.accept o) := by
  have start (o : Op) : (if b.busy then b.reject else b.accept o) = b.reject
      ∨ (b.fsm = .idle ∧ ∃ o', (if b.busy then b.reject else b.accept o) = b.accept o') := by
    cases hb : b.busy
    · exact .inr ⟨by simpa [Block.busy] using hb, o, rfl⟩
    · exact .inl rfl
  cases i
  case wrCtrlScanOnce => exact .inr (start .scan)
  case wrCtrlWaitKeypress => exact .inr (start .wait)
  case wrCtrlRsvdOp => exact .inr (.inl rfl)
  all_goals exact .inl rfl

/-! ### The settle counter -/

/-- R5: parameters within their constraints settle for at least two cycles. -/
theorem two_le_settleCycles {p : Params} (h : p.wellFormed = true) : 2 ≤ p.settleCycles := by
  simp only [Params.wellFormed, syncStages, Bool.and_eq_true] at h
  exact of_decide_eq_true h.1.1

theorem le_two_pow_cntWidth (n : Nat) : n ≤ 2 ^ cntWidth n := by
  unfold cntWidth
  split
  · omega
  · have := @Nat.lt_log2_self (n - 1)
    omega

/-- R70: within its range the counter never wraps. -/
theorem cnt_succ_mod {n c : Nat} (h : c + 1 < n) : (c + 1) % 2 ^ cntWidth n = c + 1 :=
  Nat.mod_eq_of_lt (Nat.lt_of_lt_of_le h (le_two_pow_cntWidth n))

/-! ### The FSM's step -/

@[simp] theorem fsmStep_idle {p : Params} {b pre : Block} (h : pre.fsm = .idle) : b.fsmStep p pre = b := by
  simp [Block.fsmStep, h]

@[simp] theorem fsmStep_settle {p : Params} {b pre : Block} (h : pre.fsm = .settle) :
    b.fsmStep p pre = b.settleStep p pre := by simp [Block.fsmStep, h]

@[simp] theorem fsmStep_sample {p : Params} {b pre : Block} (h : pre.fsm = .sample) :
    b.fsmStep p pre = b.sampleStep p pre := by simp [Block.fsmStep, h]

/-- The ways a scan can end (R86, R87, R94-R97). -/
theorem scanEnd_cases (p : Params) (o : ScanOutcome) (b pre : Block) :
    (pre.op = .scan ∧ b.scanEnd p o pre = b.complete o)
    ∨ (pre.op = .wait ∧ pre.wph = .press ∧ o = .noKey ∧ b.scanEnd p o pre = b.startScan)
    ∨ (pre.op = .wait ∧ pre.wph = .press ∧ ∃ k sym, o = .hit k sym ∧ b.scanEnd p o pre = b.latchPress k)
    ∨ (pre.op = .wait ∧ pre.wph = .release ∧ (∃ k sym, o = .hit k sym) ∧ b.scanEnd p o pre = b.startScan)
    ∨ (pre.op = .wait ∧ pre.wph = .release ∧ o = .noKey ∧ b.scanEnd p o pre = b.completeWait p pre) := by
  cases hop : pre.op <;> cases hw : pre.wph <;> cases o <;> simp [Block.scanEnd, hop, hw]

/-- The ways a phase can end (R85), by the sample. -/
theorem sampleStep_cases (p : Params) (b pre : Block) :
    (lowestSet (activeRows pre.s2) = none ∧ pre.colIdx ≠ 3 ∧ b.sampleStep p pre = b.startPhase (pre.colIdx + 1))
    ∨ (lowestSet (activeRows pre.s2) = none ∧ pre.colIdx = 3 ∧ b.sampleStep p pre = b.scanEnd p .noKey pre)
    ∨ (∃ r, lowestSet (activeRows pre.s2) = some r
        ∧ b.sampleStep p pre = b.scanEnd p (.hit ⟨r, pre.colIdx⟩ (keySymbol p ⟨r, pre.colIdx⟩)) pre) := by
  unfold Block.sampleStep phaseOutcome
  cases h : lowestSet (activeRows pre.s2) with
  | none =>
    by_cases hc : pre.colIdx = 3
    · exact .inr (.inl ⟨rfl, hc, by simp only [hc, if_pos]⟩)
    · exact .inl ⟨rfl, hc, by simp only [hc, if_neg, not_false_eq_true]⟩
  | some r => exact .inr (.inr ⟨r, rfl, rfl⟩)

/-- The FSM's step does nothing, settles, moves to the sample, or ends a phase. -/
theorem fsmStep_cases (p : Params) (b pre : Block) :
    ((pre.fsm = .idle ∨ pre.fsm = .rsvd11) ∧ b.fsmStep p pre = b)
    ∨ (pre.fsm = .settle ∧ pre.cnt = p.settleCycles - 1 ∧ b.fsmStep p pre = { b with fsm := .sample })
    ∨ (pre.fsm = .settle ∧ pre.cnt ≠ p.settleCycles - 1
        ∧ b.fsmStep p pre = { b with cnt := (pre.cnt + 1) % 2 ^ cntWidth p.settleCycles })
    ∨ (pre.fsm = .sample ∧ b.fsmStep p pre = b.sampleStep p pre) := by
  cases h : pre.fsm
  case settle =>
    by_cases hc : pre.cnt = p.settleCycles - 1 <;> simp [Block.fsmStep, Block.settleStep, h, hc]
  all_goals simp [Block.fsmStep, h]

/-- No FSM action reads or writes `st_err` (R124): it passes through the FSM's step. -/
theorem fsmStep_stErr (p : Params) (b pre : Block) (e : Bool) :
    ({ b with stErr := e } : Block).fsmStep p pre = { b.fsmStep p pre with stErr := e } := by
  have ends (o : ScanOutcome) :
      ({ b with stErr := e } : Block).scanEnd p o pre = { b.scanEnd p o pre with stErr := e } := by
    cases hop : pre.op <;> cases hw : pre.wph <;> cases o <;> simp only [Block.scanEnd, hop, hw] <;> rfl
  cases hf : pre.fsm
  case idle => simp [Block.fsmStep, hf]
  case rsvd11 => simp [Block.fsmStep, hf]
  case settle =>
    simp only [Block.fsmStep, hf, Block.settleStep]
    split <;> rfl
  case sample =>
    simp only [Block.fsmStep, hf, Block.sampleStep]
    cases phaseOutcome p pre.colIdx (activeRows pre.s2) with
    | miss =>
      simp only
      split
      · exact ends .noKey
      · rfl
    | hit k sym => exact ends (.hit k sym)

/-! ### The registers across an edge -/

/-- Beside the shift of `row_sync`, an edge is the FSM's step. -/
@[simp] theorem edge_s1 (p : Params) (r : Lines) (b pre : Block) : (b.edge p r pre).s1 = r := rfl
@[simp] theorem edge_s2 (p : Params) (r : Lines) (b pre : Block) : (b.edge p r pre).s2 = pre.s1 := rfl

end Sys2Proof.Machine
end

