-- ==== Sys2Proof/Laws/PerInstr.lean ====
section
/-! SUPPORT. Per-instruction laws: a transaction's canonical word matches its own row of the opcode table of R58, and no
other row. -/

namespace Sys2Proof.Laws.EncodeMatchesRow

/-- The rows of R58's table that the canonical word of `i` matches are exactly those with its mnemonic. -/
def Statement (i : Instr) : Prop := ∀ r ∈ opcodeRows, r.matchesWord (encode i) = (r.mnemonic == i.mnemonic)

theorem wrCtrlNop : Statement .wrCtrlNop := by unfold Statement; decide
theorem wrCtrlScanOnce : Statement .wrCtrlScanOnce := by unfold Statement; decide
theorem wrCtrlWaitKeypress : Statement .wrCtrlWaitKeypress := by unfold Statement; decide
theorem wrCtrlRsvdOp : Statement .wrCtrlRsvdOp := by unfold Statement; decide
theorem wrStatus (v : Byte) : Statement (.wrStatus v) := by unfold Statement; revert v; decide
theorem wrResult (v : Byte) : Statement (.wrResult v) := by unfold Statement; revert v; decide
theorem wrRsvd3 (v : Byte) : Statement (.wrRsvd3 v) := by unfold Statement; revert v; decide
theorem rdCtrl : Statement .rdCtrl := by unfold Statement; decide
theorem rdStatus : Statement .rdStatus := by unfold Statement; decide
theorem rdResult : Statement .rdResult := by unfold Statement; decide
theorem rdRsvd3 : Statement .rdRsvd3 := by unfold Statement; decide

end Sys2Proof.Laws.EncodeMatchesRow
end

