-- ==== Sys2Proof/Laws/Step.lean ====
section
/-! SUPPORT. What one cycle can do, said once. -/

namespace Sys2Proof.Machine

/-- The registers after the transaction of this cycle, before the FSM's writes of the same edge. -/
def State.hostBlock (s : State) : Block :=
  match s.transaction with
  | none => s.block
  | some i => Machine.hostBlock i s.block

/-! ### The transaction of a cycle -/

/-- The word put on the pins is the word read off them (R54). -/
theorem ofWord_toWord (t : Txn) : (BusPins.ofWord t).toWord = t := by
  revert t; decide +kernel

theorem transaction_word {s : State} {w : Txn} {rest : List HostLine} (h : s.host = .word w :: rest) :
    s.transaction = some (decodeWord w) := by
  have hb : s.bus = .ofWord w := by simp [State.bus, h, linePins]
  have hs : s.bus.sel = true := by rw [hb]; rfl
  rw [State.transaction, if_pos hs, hb, ofWord_toWord]

theorem transaction_nobus {s : State} {n : Nat} {rest : List HostLine} (h : s.host = .nobus n :: rest) :
    s.transaction = none := by
  simp [State.transaction, State.bus, h, linePins, BusPins.none]

theorem transaction_poll {s : State} {gaps : List Nat} {gap : Nat} {rest : List HostLine} (h : s.host = .poll gaps gap :: rest) :
    s.transaction = some .rdStatus := by
  have hb : s.bus = .ofWord (encode .rdStatus) := by simp [State.bus, h, linePins]
  have hs : s.bus.sel = true := by rw [hb]; rfl
  rw [State.transaction, if_pos hs, hb, ofWord_toWord]
  rfl

/-! ### The step -/

theorem step_none {s : State} (h : s.rstN = true) (hf : s.block.fsm ≠ .rsvd11) (ht : s.transaction = none) :
    step s = .next (clockEdge s s) := by simp [step, h, hf, ht]

theorem step_some {s u : State} {i : Instr} (h : s.rstN = true) (hf : s.block.fsm ≠ .rsvd11)
    (ht : s.transaction = some i) (hx : exec i s = .next u) : step s = .next (clockEdge s u) := by
  simp [step, h, hf, ht, hx, finishCycle]

theorem step_reset {s : State} (h : s.rstN = false) : step s = .next (resetCycle s) := by simp [step, h]

theorem step_stuck {s : State} (h : s.rstN = true) (hf : s.block.fsm = .rsvd11) : step s = .fault .fsmEncoding11 := by
  simp [step, h, hf]

/-- A cycle with reset released: the transaction and the FSM's step. -/
theorem step_live {s : State} (h : s.rstN = true) (hf : s.block.fsm ≠ .rsvd11) :
    ∃ u, step s = .next (clockEdge s u) ∧ u.block = s.hostBlock ∧ u.params = s.params
      ∧ (s.transaction = none → u = s) ∧ (∀ i, s.transaction = some i → exec i s = .next u) := by
  cases ht : s.transaction with
  | none => exact ⟨s, by simp [step, h, hf, ht], by simp [State.hostBlock, ht], rfl, fun _ => rfl, by simp⟩
  | some i =>
    obtain ⟨u, hu⟩ := exec_answers i s
    refine ⟨u, by simp [step, h, hf, ht, hu, finishCycle], ?_, (exec_agents hu).1, by simp, ?_⟩
    · simpa [State.hostBlock, ht] using exec_block hu
    · rintro _ ⟨⟩
      exact hu

/-- The inversion of `step`: reset, or a live cycle. -/
theorem step_cases {s t : State} (h : step s = .next t) :
    (s.rstN = false ∧ t = resetCycle s)
    ∨ (s.rstN = true ∧ s.block.fsm ≠ .rsvd11 ∧ ∃ u, t = clockEdge s u ∧ u.block = s.hostBlock ∧ u.params = s.params
        ∧ (s.transaction = none → u = s) ∧ (∀ i, s.transaction = some i → exec i s = .next u)) := by
  cases hr : s.rstN
  · exact .inl ⟨rfl, by simpa [step_reset hr] using h.symm⟩
  · by_cases hf : s.block.fsm = .rsvd11
    · simp [step_stuck hr hf] at h
    · obtain ⟨u, hu, rest⟩ := step_live hr hf
      exact .inr ⟨rfl, hf, u, by simpa [hu] using h.symm, rest⟩

/-- The registers after a live cycle that no reset follows. -/
theorem step_block {s t : State} (h : step s = .next t) (hr : s.rstN = true) (hr' : t.rstN = true) :
    t.block = s.hostBlock.edge s.params s.rowN s.block := by
  obtain ⟨h0, -⟩ | ⟨-, -, u, rfl, hu, -⟩ := step_cases h
  · simp [hr] at h0
  · have : s.nextEnv.rstN = true := by simpa using hr'
    simp [this, hu]

/-- What moves between two cycles outside the block, in every cycle. -/
theorem step_agents {s t : State} (h : step s = .next t) :
    t.params = s.params ∧ t.rstN = s.nextEnv.rstN ∧ t.rows = s.nextEnv.rows ∧ t.env = s.env.tail
      ∧ t.host = hostAfter s.busRdata s.host ∧ t.cycle = s.cycle + 1
      ∧ t.rowsHeld = if s.nextEnv.rows = s.rows then s.rowsHeld + 1 else 0 := by
  obtain ⟨-, rfl⟩ | ⟨-, -, u, rfl, -, hp, -⟩ := step_cases h
  · simp
  · simp [hp]

/-- The host's part of a cycle leaves the registers, rejects, or accepts from idle. -/
theorem hostBlock_of_state_cases (s : State) :
    s.hostBlock = s.block ∨ s.hostBlock = s.block.reject ∨ (s.block.fsm = .idle ∧ ∃ o, s.hostBlock = s.block.accept o) := by
  unfold State.hostBlock
  split
  · exact .inl rfl
  · exact hostBlock_cases _ _

/-- The host's part of a cycle: an acceptance, or at most a rejection (R104-R110). -/
theorem hostBlock_eq (s : State) :
    s.hostBlock = if s.acceptsNow then s.block.accept (s.startsNow.getD .scan)
      else { s.block with stErr := s.block.stErr || s.rejectsNow } := by
  unfold State.hostBlock State.acceptsNow State.rejectsNow State.startsNow
  cases ht : s.transaction with
  | none => simp
  | some i => cases i <;> cases hb : s.block.busy <;> simp [Machine.hostBlock, hb, Block.reject]

/-- While a command runs the host can at most have a write rejected (R108, R109). -/
theorem hostBlock_busy {s : State} (hb : s.block.busy = true) :
    s.hostBlock = { s.block with stErr := s.block.stErr || s.rejectsNow } := by
  rw [hostBlock_eq]
  simp [State.acceptsNow, hb]

/-- To show what a live cycle gives, show it of the registers after its edge. -/
theorem cycleGives_of_edge {s : State} {P : Block → Prop} (hr : s.rstN = true) (hf : s.block.fsm ≠ .rsvd11)
    (h : P (s.hostBlock.edge s.params s.rowN s.block)) : s.cycleGives P := by
  obtain ⟨u, hu, -⟩ := step_live hr hf
  exact ⟨_, hu, fun h' => by rw [step_block hu hr h']; exact h⟩

/-! ### The host's script -/

/-- What follows a read of a `POLL` (R66): the rest of the script, or the `NOBUS` cycles before the next read. -/
theorem hostAfter_poll (rdata : Byte) (gaps : List Nat) (gap : Nat) (rest : List HostLine) :
    hostAfter rdata (.poll gaps gap :: rest)
      = if rdata.getLsbD 0 = false then rest
        else if gaps.headD gap = 0 then .poll gaps.tail gap :: rest
        else .nobus (gaps.headD gap) :: .poll gaps.tail gap :: rest := by
  unfold hostAfter pollAgain
  cases rdata.getLsbD 0 <;> by_cases h : gaps.headD gap = 0 <;> simp only [h] <;> rfl

/-! ### The inputs of a run -/

/-- What the scripts say of every coming cycle, the step carries on: `P` of the present levels and of all scripted ones. -/
theorem env_step {s t : State} {P : EnvCycle → Prop} (h : step s = .next t) (h0 : P ⟨s.rstN, s.rows⟩) (hs : ∀ e ∈ s.env, P e) :
    P ⟨t.rstN, t.rows⟩ ∧ ∀ e ∈ t.env, P e := by
  obtain ⟨-, h2, h3, h4, -⟩ := step_agents h
  refine ⟨?_, fun e he => hs e (List.mem_of_mem_tail (h4 ▸ he))⟩
  rw [h2, h3]
  show P s.nextEnv
  rw [State.nextEnv]
  cases he : s.env with
  | nil => exact h0
  | cons e es => exact hs e (he ▸ List.mem_cons_self)

theorem noReset_step {s t : State} (h : step s = .next t) (hn : s.noReset) : t.noReset :=
  env_step (P := fun e => e.rstN = true) h hn.1 hn.2

theorem stuckActive_step {r : LineIdx} {s t : State} (h : step s = .next t) (hr : s.stuckActive r) : t.stuckActive r :=
  env_step (P := fun e => e.rows.holdsActive r = true) h hr.1 hr.2

/-- A stuck row line reads active in every cycle (R147). -/
theorem stuckActive_rowN {r : LineIdx} {s : State} (h : s.stuckActive r) : s.rowN.getLsbD r.toNat = false := by
  obtain ⟨h, -⟩ := h
  unfold State.rowN
  cases hs : s.rows <;> simp_all [RowSource.holdsActive]

/-! ### Runs -/

theorem after_unique {s : State} {n : Nat} {P Q : State → Prop} (h : s.after n P) (h' : s.after n Q) :
    ∃ t, runCycles n s = .next t ∧ P t ∧ Q t := by
  obtain ⟨t, ht, hp⟩ := h
  obtain ⟨u, hu, hq⟩ := h'
  rw [ht] at hu
  cases hu
  exact ⟨t, ht, hp, hq⟩

/-- A run ends at most once, with one observation (R151). -/
theorem runEnds_unique {s : State} {n n' : Nat} {o o' : Observation} (h : s.runEnds n o) (h' : s.runEnds n' o') :
    n = n' ∧ o = o' := by
  obtain ⟨-, -, he, hb⟩ := h
  obtain ⟨-, -, he', hb'⟩ := h'
  have hlt : ∀ {m m' : Nat} {o : Observation}, (s.after m fun t => t.runOver = true ∧ s.observe t = o) →
      (∀ k, k < m' → s.after k fun t => t.runOver = false) → ¬ m < m' := by
    intro m m' o h hb hm
    obtain ⟨t, -, ⟨h1, -⟩, h2⟩ := after_unique h (hb m hm)
    rw [h1] at h2
    cases h2
  obtain rfl : n = n' := by have := hlt he hb'; have := hlt he' hb; omega
  obtain ⟨t, -, ⟨-, rfl⟩, -, rfl⟩ := after_unique he he'
  exact ⟨rfl, rfl⟩

end Sys2Proof.Machine
end

