-- ==== Sys2Proof/Tests/Slice0.lean ====
section
/-! SUPPORT. Tests (expected values from spec/30_encoding.md and spec/95_test_vectors.md), and for every statement with hypotheses
concrete states that meet them. -/

open Sys2Proof Sys2Proof.Machine

namespace Sys2Proof.Tests

/-! ### Helpers -/

/-- The instance of the spec's vectors: `S = 2` and the example key map; times of 10 and 5. -/
def params2 : Params := ⟨2, exampleKeymap, 10, 5, default⟩

/-- The same board with a settling time the phase does not wait for. -/
def paramsSlow : Params := ⟨2, exampleKeymap, 10, 50, default⟩

/-- Right after reset, on an idle keypad, with the host about to send `host`. -/
def idleWith (host : List HostLine) : State := { State.resetWith params2 with rows := .keypad none, host := host }

/-- A state whose block is `b`. -/
def withBlock (b : Block) (host : List HostLine) : State := { idleWith host with block := b }

/-- The first cycle of a phase for column 0. -/
def settling : Block := { Block.reset with fsm := .settle, colN := 0b1110 }

/-- The sample cycle of column `c`. -/
def sampling (op : Op) (wph : Wph) (c : LineIdx) (s2 : Lines) : Block :=
  { Block.reset with fsm := .sample, op := op, wph := wph, colIdx := c, cnt := 1, colN := driveColumn c, s2 := s2 }

/-- A completed command that reported key (1, 2) under the example map. -/
def reported : Block := { Block.reset with stDone := true, stKey := true, res := 0x96 }

/-- What a test looks at: STATUS, RESULT, the column lines, and what the host has read. -/
def seen : Host.Outcome State Fault Refusal → Option (Byte × Byte × Lines × List Byte)
  | .next t => some (t.block.status, t.block.res, t.block.colN, t.returned)
  | .fault _ => none
  | .refused _ => none

/-- The invariant from facts that evaluate. -/
theorem inv_of_checks (s : State)
    (h : s.params.wellFormed = true ∧ s.block.fsm ≠ .rsvd11
      ∧ s.block.colN = (if s.block.fsm = .idle then noColumn else driveColumn s.block.colIdx)
      ∧ s.block.cnt < s.params.settleCycles
      ∧ (s.block.fsm = .sample → s.block.cnt + 1 = s.params.settleCycles)
      ∧ (s.block.fsm = .idle → s.block.colIdx = 0 ∧ s.block.cnt = 0 ∧ s.block.wph = .press)
      ∧ (s.block.op = .scan → s.block.wph = .press) ∧ (s.block.stDone = true → s.block.fsm = .idle)
      ∧ (s.block.stKey = true → s.block.stDone = true) ∧ (s.rstN = false → s.block = Block.reset)) : s.Inv := by
  obtain ⟨h0, h1, h2, h3, h4, h5, h6, h7, h8, h9⟩ := h
  exact ⟨h0, ⟨h1, h2, h3, h4, h5, h6, h7, h8⟩, h9⟩

/-! ### Well-formedness -/

theorem test_wf_refuses_empty_nobus : HostLine.wellFormed (.nobus 0) = false := by decide
theorem test_wf_accepts_nobus_7 : HostLine.wellFormed (.nobus 7) = true := by decide
theorem test_wf_refuses_settle_below_sync : Params.wellFormed { params2 with settleCycles := 1 } = false := by decide
theorem test_wf_refuses_zero_clock_period : Params.wellFormed { params2 with tClk := 0 } = false := by decide
theorem test_wf_refuses_zero_settling_time : Params.wellFormed { params2 with tSettle := 0 } = false := by decide
theorem test_wf_accepts_vector_params : Params.wellFormed params2 = true := by decide

/-! ### Words, written out as `we`, `addr`, `wdata` from spec/30 R58 and spec/95 2.1 -/

theorem test_decode_wrCtrlNop : decodeWord 0b1_00_00000000 = .wrCtrlNop := by decide
theorem test_decode_wrCtrlScanOnce : decodeWord 0b1_00_11111101 = .wrCtrlScanOnce := by decide
theorem test_decode_wrCtrlWaitKeypress : decodeWord 0b1_00_00000010 = .wrCtrlWaitKeypress := by decide
theorem test_decode_wrCtrlRsvdOp : decodeWord 0b1_00_11111111 = .wrCtrlRsvdOp := by decide
theorem test_decode_wrStatus : decodeWord 0b1_01_11110000 = .wrStatus 0xF0 := by decide
theorem test_decode_wrResult : decodeWord 0b1_10_00001111 = .wrResult 0x0F := by decide
theorem test_decode_wrRsvd3 : decodeWord 0b1_11_01011010 = .wrRsvd3 0x5A := by decide
theorem test_decode_rdCtrl : decodeWord 0b0_00_10101011 = .rdCtrl := by decide
theorem test_decode_rdStatus : decodeWord 0b0_01_00000000 = .rdStatus := by decide
theorem test_decode_rdResult : decodeWord 0b0_10_11111111 = .rdResult := by decide
theorem test_decode_rdRsvd3 : decodeWord 0b0_11_00000000 = .rdRsvd3 := by decide
theorem test_encode_wrStatus : encode (.wrStatus 0xFF) = 0x5FF := by decide
theorem test_encode_wrRsvd3 : encode (.wrRsvd3 0x5A) = 0x75A := by decide
theorem test_bytes_low_byte_first : decodeBytes [0x5A, 0x07, 0x11] = .ok (.wrRsvd3 0x5A, [0x11]) := by rfl
theorem test_bytes_refused_short : decodeBytes [0x02] = .error .tooFewBytes := by rfl
theorem test_bytes_refused_high_bits : decodeBytes [0x02, 0x08] = .error .bitsAboveWord := by rfl

/-! ### One step of each transaction (spec/95 2.1, 2.6; the registers as the next cycle has them) -/

/-- H2: `WR CTRL, NOP` with STATUS 0x06. -/
theorem test_step_wrCtrlNop :
    seen (step (withBlock reported [.word 0x400])) = some (0x06, 0x96, 0b1111, []) := by rfl
/-- 0x401 accepted: STATUS 0x01, column 0 driven; RESULT is stale, not cleared (R141). -/
theorem test_step_wrCtrlScanOnce_idle :
    seen (step (withBlock reported [.word 0x401])) = some (0x01, 0x96, 0b1110, []) := by rfl
/-- H7: `SCAN_ONCE` on the completion edge: STATUS 0x0A. -/
theorem test_step_wrCtrlScanOnce_completion_edge :
    seen (step (withBlock (sampling .scan .press 3 0b1111) [.word 0x401])) = some (0x0A, 0x00, 0b1111, []) := by rfl
/-- 0x402 accepted: STATUS 0x01. -/
theorem test_step_wrCtrlWaitKeypress_idle :
    seen (step (idleWith [.word 0x402])) = some (0x01, 0x00, 0b1110, []) := by rfl
/-- H6: `WAIT_KEYPRESS` while busy: STATUS 0x09, the running scan unchanged. -/
theorem test_step_wrCtrlWaitKeypress_busy :
    seen (step (withBlock settling [.word 0x402])) = some (0x09, 0x00, 0b1110, []) := by rfl
/-- H4: 0x4FF from reset: STATUS 0x08. -/
theorem test_step_wrCtrlRsvdOp_idle :
    seen (step (idleWith [.word 0x4FF])) = some (0x08, 0x00, 0b1111, []) := by rfl
/-- H10: `WR STATUS, #0xFF`: the flags stay. -/
theorem test_step_wrStatus :
    seen (step (withBlock reported [.word 0x5FF])) = some (0x06, 0x96, 0b1111, []) := by rfl
/-- H9: `WR RESULT, #0x00`. -/
theorem test_step_wrResult :
    seen (step (withBlock reported [.word 0x600])) = some (0x06, 0x96, 0b1111, []) := by rfl
/-- H11: `WR RSVD3, #0x5A`. -/
theorem test_step_wrRsvd3 :
    seen (step (withBlock reported [.word 0x75A])) = some (0x06, 0x96, 0b1111, []) := by rfl
/-- R114: `RD CTRL`. -/
theorem test_step_rdCtrl :
    seen (step (withBlock reported [.word 0x0AB])) = some (0x06, 0x96, 0b1111, [0x00]) := by rfl
/-- W1: a release scan in column 1 reads 0x51. -/
theorem test_step_rdStatus_release_scan :
    seen (step (withBlock { settling with op := .wait, wph := .release, colIdx := 1, colN := 0b1101 } [.word 0x100]))
      = some (0x51, 0x00, 0b1101, [0x51]) := by rfl
/-- S3: RESULT of key (1, 2). -/
theorem test_step_rdResult :
    seen (step (withBlock reported [.word 0x200])) = some (0x06, 0x96, 0b1111, [0x96]) := by rfl
/-- R117: `RD RSVD3`. -/
theorem test_step_rdRsvd3 :
    seen (step (withBlock reported [.word 0x300])) = some (0x06, 0x96, 0b1111, [0x00]) := by rfl

/-! ### The FSM, the lines and reset (spec/95 1, 2.2, 2.3, 2.7) -/

/-- 2.2, column 3, `act = 0100`: FN0 of key (2, 3). -/
theorem test_sample_hit_row2_col3 :
    seen (step (withBlock (sampling .scan .press 3 0b1011) [])) = some (0x06, 0xEB, 0b1111, []) := by rfl
/-- 2.2, column 1, `act = 0110`: the lowest row wins. -/
theorem test_sample_lowest_row_wins :
    seen (step (withBlock (sampling .scan .press 1 0b1001) [])) = some (0x06, 0x55, 0b1111, []) := by rfl
/-- W3: a release scan without a key reports the latched key (1, 0). -/
theorem test_release_reports_latched_key :
    seen (step (withBlock { sampling .wait .release 3 0b1111 with prow := 1, pcol := 0 } []))
      = some (0x06, 0x14, 0b1111, []) := by rfl
/-- 2.3, cycle 0: key (1, 0) held, column 0 driven. -/
theorem test_row_level_of_held_key : idealRows 0b1110 (some ⟨1, 0⟩) = 0b1101 := by decide
/-- 2.3, cycle -1: nothing driven. -/
theorem test_row_level_undriven : idealRows 0b1111 (some ⟨1, 0⟩) = 0b1111 := by decide
/-- X1: reset asserted in the next cycle forces the registers at once. -/
theorem test_reset_forces_registers :
    seen (step { withBlock settling [] with env := [⟨false, .keypad none⟩] }) = some (0x00, 0x00, 0b1111, []) := by rfl
/-- X4: a start command while reset is asserted. -/
theorem test_reset_ignores_start :
    seen (step { idleWith [.word 0x401] with rstN := false }) = some (0x00, 0x00, 0b1111, []) := by rfl
/-- R9: `CNT_W` for 2, 3, 4, 5. -/
theorem test_cnt_width : (cntWidth 2, cntWidth 3, cntWidth 4, cntWidth 5) = (1, 2, 2, 3) := by decide
/-- R62: key (3, 3), symbol 0xF. -/
theorem test_result_word : resultWord ⟨3, 3⟩ (keySymbol params2 ⟨3, 3⟩) = 0xFF := by decide
/-- R66: the words of `SCAN` and `GETKEY`, minimal. -/
theorem test_macros :
    scanMacro [] 0 = [.word 0x401, .poll [] 0, .word 0x200]
      ∧ getkeyMacro [] 0 = [.word 0x402, .poll [] 0, .word 0x200] := by decide
/-- R66: `NOBUS` cycles between the reads of one `POLL`: 2, then 0, then 5 for ever. -/
theorem test_poll_gaps :
    hostAfter 0x01 [.poll [2, 0] 5] = [.nobus 2, .poll [0] 5] ∧ hostAfter 0x01 [.poll [0] 5] = [.poll [] 5]
      ∧ hostAfter 0x01 [.poll [] 5] = [.nobus 5, .poll [] 5] ∧ hostAfter 0x06 [.poll [2, 0] 5] = [] := by decide
/-- R66: `s[2]` tells "no key" from key (0, 0), whose RESULT is 0x00 too (E1, E2). -/
theorem test_scan_answer : scanAnswer 0x02 0x00 = none ∧ scanAnswer 0x06 0x00 = some 0x00 := by decide
/-- R151: idle cycles after the last transaction are no part of the run, and a read before the launch is not observed. -/
theorem test_run_end :
    { idleWith [.word 0x100, .nobus 7] with returned := [0x55] }.runEnds 1 ⟨0x00, 0x00, 0b1111, [0x00]⟩ := by
  refine ⟨⟨rfl, rfl⟩, ⟨rfl, by decide⟩, ⟨_, rfl, rfl, rfl⟩, fun m hm => ?_⟩
  obtain rfl : m = 0 := by omega
  exact ⟨_, rfl, rfl⟩
/-- From `State.reset` itself, whatever the parameters: a start command placed on the bus is accepted. -/
theorem test_from_reset_start_accepted :
    seen (step (State.reset.withFetchWord 11 0x402)) = some (0x01, 0x00, 0b1110, []) := by rfl

/-! ### Hypotheses that can be met -/

theorem witness_IgnoredCtrlBitsDoNotDecode : ∃ t : Txn, t &&& 0x700 = 0x400 ∧ t ≠ t &&& 0x703 := ⟨0x4FD, by decide⟩

theorem witness_DecodeEncodeRoundTrip : ∃ i : Instr, i.wellFormed = true := ⟨.wrRsvd3 0x5A, by decide⟩

theorem witness_LeastActiveRowIsReported :
    (∃ act, lowestSet act = none) ∧ (∃ act r, lowestSet act = some r) ∧ lowestSet 0b1010 = some 1 :=
  ⟨⟨0, by decide⟩, ⟨0b1000, 3, by decide⟩, by decide⟩

theorem witness_ResetHoldsEveryElement_held : ∃ s : State, s.rstN = false ∧ s.block.fsm = .rsvd11 :=
  ⟨{ withBlock { Block.reset with fsm := .rsvd11 } [] with rstN := false }, by decide⟩

theorem witness_ResetHoldsEveryElement_asserted :
    ∃ s t : State, s.rstN = true ∧ step s = .next t ∧ t.rstN = false :=
  ⟨{ withBlock settling [] with env := [⟨false, .unknown⟩] }, _, by decide, rfl, by decide⟩

theorem witness_FirstTransactionAfterRelease_scan :
    ∃ (s : State) (w w' : Txn) (rest : List HostLine),
      s.rstN = false ∧ s.nextEnv.rstN = true ∧ s.host = .word w' :: .word w :: rest ∧ decodeWord w = .wrCtrlScanOnce :=
  ⟨{ idleWith [.word 0x402, .word 0x401] with rstN := false, env := [⟨true, .unknown⟩] }, 0x401, 0x402, [], by decide⟩

theorem witness_FirstTransactionAfterRelease_wait :
    ∃ (s : State) (w w' : Txn) (rest : List HostLine),
      s.rstN = false ∧ s.nextEnv.rstN = true ∧ s.host = .word w' :: .word w :: rest ∧ decodeWord w = .wrCtrlWaitKeypress :=
  ⟨{ idleWith [.word 0x401, .word 0x402] with rstN := false, env := [⟨true, .unknown⟩] }, 0x402, 0x401, [], by decide⟩

theorem witness_StepRunsTheTransaction :
    ∃ (s : State) (i : Instr), s.rstN = true ∧ s.block.fsm ≠ .rsvd11 ∧ s.bus.sel = true ∧ decodeWord s.bus.toWord = i
      ∧ i.wellFormed = true :=
  ⟨idleWith [.word 0x4FD], .wrCtrlScanOnce, by decide⟩

theorem witness_IssuedWordIsRun :
    ∃ (s : State) (nbits w : Nat) (i : Instr), s.block.fsm ≠ .rsvd11 ∧ decodeTableWord nbits w = some i :=
  ⟨withBlock settling [], 11, 0x75A, .wrRsvd3 0x5A, by decide⟩

theorem witness_ClockEdgeMovesTheCycleOn :
    (∃ s : State, s.nextEnv.rstN = true ∧ s.nextEnv.rows = s.rows)
    ∧ ∃ s : State, s.nextEnv.rstN = false ∧ s.nextEnv.rows ≠ s.rows :=
  ⟨⟨idleWith [], by decide⟩, ⟨{ idleWith [] with env := [⟨false, .keypad (some ⟨2, 1⟩)⟩] }, by decide⟩⟩

theorem witness_SynchroniserShiftsAtEveryEdge :
    ∃ s t : State, s.rstN = true ∧ step s = .next t ∧ t.rstN = true :=
  ⟨withBlock settling [.word 0x403], _, by decide, rfl, by decide⟩

theorem witness_IdleCycleChangesOnlyRowSync :
    ∃ s : State, s.rstN = true ∧ s.block.fsm = .idle ∧ s.bus.sel = false ∧ s.nextEnv.rstN = true :=
  ⟨withBlock reported [.nobus 3], by decide⟩

theorem witness_StepAlwaysAnswers : ∃ s : State, s.block.fsm ≠ .rsvd11 := ⟨withBlock settling [], by decide⟩

theorem witness_ReservedFsmEncodingIsStuck :
    (∃ s : State, s.block.fsm = .rsvd11 ∧ s.rstN = true) ∧ ∃ s : State, s.block.fsm = .rsvd11 ∧ s.rstN = false :=
  ⟨⟨withBlock { Block.reset with fsm := .rsvd11 } [], by decide⟩,
    ⟨{ withBlock { Block.reset with fsm := .rsvd11 } [] with rstN := false }, by decide⟩⟩

theorem witness_StartCommandAcceptedWhenIdle_scan :
    ∃ s : State, s.block.fsm = .idle ∧ s.rstN = true ∧ s.transaction = some .wrCtrlScanOnce ∧ s.nextEnv.rstN = true :=
  ⟨withBlock reported [.word 0x4FD], by decide⟩

theorem witness_StartCommandAcceptedWhenIdle_wait :
    ∃ s : State, s.block.fsm = .idle ∧ s.rstN = true ∧ s.transaction = some .wrCtrlWaitKeypress ∧ s.nextEnv.rstN = true :=
  ⟨withBlock reported [.word 0x402], by decide⟩

theorem witness_StartCommandRejectedWhenBusy_scan :
    ∃ (s : State) (w : Txn) (rest : List HostLine), s.block.busy = true ∧ s.rstN = true ∧ s.block.fsm ≠ .rsvd11
      ∧ s.host = .word w :: rest ∧ decodeWord w = .wrCtrlScanOnce ∧ s.nextEnv.rstN = true :=
  ⟨withBlock settling [.word 0x401], 0x401, [], by decide⟩

theorem witness_StartCommandRejectedWhenBusy_wait :
    ∃ (s : State) (w : Txn) (rest : List HostLine), s.block.busy = true ∧ s.rstN = true ∧ s.block.fsm ≠ .rsvd11
      ∧ s.host = .word w :: rest ∧ decodeWord w = .wrCtrlWaitKeypress ∧ s.nextEnv.rstN = true :=
  ⟨withBlock (sampling .wait .release 3 0b1111) [.word 0x402], 0x402, [], by decide⟩

theorem witness_StatusRead :
    (∃ s : State, s.Inv ∧ s.block.stDone = true ∧ s.block.busy = false)
    ∧ ∃ s : State, s.Inv ∧ s.block.rls = true ∧ s.block.colIdx = 3 :=
  ⟨⟨withBlock reported [.word 0x100], inv_of_checks _ (by decide), by decide⟩,
    ⟨withBlock (sampling .wait .release 3 0b1111) [.word 0x100], inv_of_checks _ (by decide), by decide⟩⟩

theorem reported_coherent : reported.ResultCoherent params2 :=
  ⟨fun _ => ⟨⟨1, 2⟩, by decide⟩, by decide⟩

theorem witness_ResultRead :
    ∃ s : State, s.block.ResultCoherent s.params ∧ s.block.stDone = true ∧ s.block.stKey = true :=
  ⟨withBlock reported [.word 0x200], reported_coherent, by decide⟩

theorem witness_ReadsReturnTheBusValue :
    (∃ s t : State, step s = .next t ∧ s.bus.sel = true ∧ s.bus.we = false ∧ s.rstN = true ∧ s.bus.addr = 1)
    ∧ (∃ s t : State, step s = .next t ∧ s.bus.sel = true ∧ s.bus.we = false ∧ s.rstN = true ∧ s.bus.addr = 2)
    ∧ (∃ s t : State, step s = .next t ∧ s.bus.sel = true ∧ s.bus.we = false ∧ s.rstN = true ∧ s.bus.addr = 3)
    ∧ (∃ s t : State, step s = .next t ∧ s.bus.sel = true ∧ s.bus.we = false ∧ s.rstN = false)
    ∧ ∃ s t : State, step s = .next t ∧ s.bus.we = true :=
  ⟨⟨idleWith [.word 0x100], _, rfl, by decide⟩, ⟨idleWith [.word 0x200], _, rfl, by decide⟩,
    ⟨idleWith [.word 0x3FF], _, rfl, by decide⟩, ⟨{ idleWith [.word 0x100] with rstN := false }, _, rfl, by decide⟩,
    ⟨idleWith [.word 0x401], _, rfl, by decide⟩⟩

theorem witness_NoStaleIdleReadAfterStart :
    (∃ (s : State) (w w' : Txn) (rest : List HostLine), s.rstN = true ∧ s.nextEnv.rstN = true ∧ s.block.fsm = .idle
      ∧ s.host = .word w :: .word w' :: rest ∧ decodeWord w = .wrCtrlScanOnce ∧ decodeWord w' = .rdStatus)
    ∧ ∃ (s : State) (w w' : Txn) (rest : List HostLine), s.rstN = true ∧ s.nextEnv.rstN = true ∧ s.block.fsm = .idle
      ∧ s.host = .word w :: .word w' :: rest ∧ decodeWord w = .wrCtrlWaitKeypress ∧ decodeWord w' = .rdStatus :=
  ⟨⟨withBlock reported [.word 0x401, .word 0x100], 0x401, 0x100, [], by decide⟩,
    ⟨withBlock reported [.word 0x402, .word 0x100], 0x402, 0x100, [], by decide⟩⟩

theorem witness_ReadAndIgnoredWriteFrame :
    ∀ (v : Byte), ∀ i ∈ [Instr.wrCtrlNop, .wrStatus v, .wrResult v, .wrRsvd3 v, .rdCtrl, .rdStatus, .rdResult, .rdRsvd3],
      ∃ t, exec i (withBlock reported []) = .next t := by
  intro v i hi
  simp only [List.mem_cons, List.not_mem_nil, or_false] at hi
  rcases hi with rfl | rfl | rfl | rfl | rfl | rfl | rfl | rfl <;> exact ⟨_, rfl⟩

theorem witness_CommandWriteFrame :
    ∀ i ∈ [Instr.wrCtrlScanOnce, .wrCtrlWaitKeypress, .wrCtrlRsvdOp],
      (∃ t, exec i (withBlock reported []) = .next t)
      ∧ ∃ t, exec i (withBlock settling []) = .next t ∧ (withBlock settling []).block.busy = true := by
  intro i hi
  simp only [List.mem_cons, List.not_mem_nil, or_false] at hi
  rcases hi with rfl | rfl | rfl <;> exact ⟨⟨_, rfl⟩, ⟨_, rfl, by decide⟩⟩

theorem witness_IgnoredTransactionsLeaveTheCycleAlone :
    (∃ (s : State) (w : Txn) (rest : List HostLine), s.rstN = true ∧ s.block.fsm ≠ .rsvd11 ∧ s.host = .word w :: rest
      ∧ w &&& 0x700 ≠ 0x400)
    ∧ ∃ (s : State) (w : Txn) (rest : List HostLine), s.rstN = true ∧ s.block.fsm ≠ .rsvd11 ∧ s.host = .word w :: rest
      ∧ w &&& 0x703 = 0x400 :=
  ⟨⟨withBlock settling [.word 0x5FF], 0x5FF, [], by decide⟩,
    ⟨withBlock (sampling .wait .press 0 0b0111) [.word 0x4FC], 0x4FC, [], by decide⟩⟩

theorem witness_HostAndFsmWriteSetsAreDisjoint :
    (∃ (i : Instr) (s t : State), exec i s = .next t ∧ t.block.op ≠ s.block.op)
    ∧ ∃ (i : Instr) (s t : State), exec i s = .next t ∧ t.block.stErr ≠ s.block.stErr ∧ s.block.fsm = .sample :=
  ⟨⟨.wrCtrlWaitKeypress, idleWith [], _, rfl, by decide⟩,
    ⟨.wrCtrlScanOnce, withBlock (sampling .scan .press 3 0b1111) [], _, rfl, by decide⟩⟩

theorem witness_StartOnTheCompletionEdgeIsRejected :
    ∃ s : State, s.rstN = true ∧ s.block.fsm = .sample ∧ s.block.op = .scan ∧ s.block.colIdx = 3
      ∧ s.block.s2 = 0b1111 ∧ s.startsNow.isSome = true ∧ s.nextEnv.rstN = true :=
  ⟨withBlock (sampling .scan .press 3 0b1111) [.word 0x401], by decide⟩

theorem witness_SettleStep :
    (∃ s : State, s.Inv ∧ s.rstN = true ∧ s.block.fsm = .settle ∧ s.block.cnt = s.params.settleCycles - 1
      ∧ s.nextEnv.rstN = true)
    ∧ ∃ s : State, s.Inv ∧ s.rstN = true ∧ s.block.fsm = .settle ∧ s.block.cnt ≠ s.params.settleCycles - 1
      ∧ s.nextEnv.rstN = true :=
  ⟨⟨withBlock { settling with cnt := 1 } [], inv_of_checks _ (by decide), by decide⟩,
    ⟨withBlock settling [.word 0x403], inv_of_checks _ (by decide), by decide⟩⟩

theorem witness_MissMovesToTheNextColumn :
    (∃ s : State, s.rstN = true ∧ s.block.fsm = .sample ∧ activeRows s.block.s2 = 0 ∧ s.block.colIdx = 0
      ∧ s.nextEnv.rstN = true)
    ∧ ∃ s : State, s.rstN = true ∧ s.block.fsm = .sample ∧ activeRows s.block.s2 = 0 ∧ s.block.colIdx = 2
      ∧ s.nextEnv.rstN = true :=
  ⟨⟨withBlock (sampling .scan .press 0 0b1111) [], by decide⟩,
    ⟨withBlock (sampling .wait .release 2 0b1111) [.word 0x401], by decide⟩⟩

theorem witness_ScanOnceCompletes :
    (∃ s : State, s.rstN = true ∧ s.block.fsm = .sample ∧ s.block.op = .scan ∧ activeRows s.block.s2 = 0
      ∧ s.block.colIdx = 3 ∧ s.nextEnv.rstN = true)
    ∧ (∃ s : State, s.rstN = true ∧ s.block.fsm = .sample ∧ s.block.op = .scan
      ∧ lowestSet (activeRows s.block.s2) = some 0 ∧ s.block.colIdx = 0 ∧ s.nextEnv.rstN = true)
    ∧ ∃ s : State, s.rstN = true ∧ s.block.fsm = .sample ∧ s.block.op = .scan
      ∧ lowestSet (activeRows s.block.s2) = some 3 ∧ s.block.colIdx = 3 ∧ s.nextEnv.rstN = true :=
  ⟨⟨withBlock (sampling .scan .press 3 0b1111) [], by decide⟩, ⟨withBlock (sampling .scan .press 0 0b0000) [], by decide⟩,
    ⟨withBlock (sampling .scan .press 3 0b0111) [], by decide⟩⟩

theorem witness_PressScanWithoutKeyRepeats :
    ∃ s : State, s.rstN = true ∧ s.block.fsm = .sample ∧ s.block.op = .wait ∧ s.block.wph = .press
      ∧ activeRows s.block.s2 = 0 ∧ s.block.colIdx = 3 ∧ s.nextEnv.rstN = true :=
  ⟨withBlock (sampling .wait .press 3 0b1111) [], by decide⟩

theorem witness_PressScanWithKeyLatches :
    ∃ (s : State) (r : LineIdx), s.rstN = true ∧ s.block.fsm = .sample ∧ s.block.op = .wait ∧ s.block.wph = .press
      ∧ lowestSet (activeRows s.block.s2) = some r ∧ s.nextEnv.rstN = true :=
  ⟨withBlock (sampling .wait .press 1 0b1011) [], 2, by decide⟩

theorem witness_ReleaseScanWithKeyRepeats :
    ∃ s : State, s.rstN = true ∧ s.block.fsm = .sample ∧ s.block.op = .wait ∧ s.block.wph = .release
      ∧ activeRows s.block.s2 ≠ 0 ∧ s.nextEnv.rstN = true :=
  ⟨withBlock { sampling .wait .release 3 0b1011 with prow := 1 } [], by decide⟩

theorem witness_ReleaseScanWithoutKeyCompletes :
    ∃ s : State, s.rstN = true ∧ s.block.fsm = .sample ∧ s.block.op = .wait ∧ s.block.wph = .release
      ∧ activeRows s.block.s2 = 0 ∧ s.block.colIdx = 3 ∧ s.nextEnv.rstN = true :=
  ⟨withBlock { sampling .wait .release 3 0b1111 with prow := 1 } [], by decide⟩

theorem witness_ResetMeetsTheInvariant : ∃ s : State, s.params.wellFormed = true ∧ s.cleanEntry :=
  ⟨idleWith [.word 0x401], by decide, rfl, rfl⟩

theorem witness_StepKeepsTheInvariant :
    (∃ s t : State, s.Inv ∧ step s = .next t)
    ∧ (∃ s t : State, s.Inv ∧ s.block.fsm = .sample ∧ step s = .next t)
    ∧ ∃ s t : State, s.Inv ∧ s.rstN = false ∧ step s = .next t :=
  ⟨⟨withBlock settling [.word 0x402], _, inv_of_checks _ (by decide), rfl⟩,
    ⟨withBlock (sampling .wait .press 3 0b0111) [], _, inv_of_checks _ (by decide), by decide, rfl⟩,
    ⟨{ idleWith [] with rstN := false }, _, inv_of_checks _ (by decide), by decide, rfl⟩⟩

theorem witness_ColumnLineInvariant :
    (∃ s t : State, s.block.fsm = .idle ∧ s.block.colN = 0b1111 ∧ step s = .next t)
    ∧ ∃ s t : State, s.block.fsm = .settle ∧ (∀ c : LineIdx, s.block.colN.getLsbD c.toNat = false ↔ c = s.block.colIdx)
      ∧ step s = .next t :=
  ⟨⟨withBlock reported [.word 0x401], _, by decide, by decide, rfl⟩, ⟨withBlock settling [], _, by decide, by decide, rfl⟩⟩

theorem witness_ResultWordStaysCoherent :
    ∃ s t : State, s.block.ResultCoherent s.params ∧ s.block.stKey = true ∧ step s = .next t :=
  ⟨withBlock reported [.word 0x600], _, reported_coherent, by decide, rfl⟩

theorem witness_ResultChangesOnlyAtCompletion :
    ∃ s t : State, s.rstN = true ∧ step s = .next t ∧ t.rstN = true ∧ t.block.res ≠ s.block.res :=
  ⟨withBlock (sampling .scan .press 1 0b1011) [], _, by decide, rfl, by decide⟩

theorem witness_LatchAndOpChangeOnlyByTheirRules :
    (∃ s t : State, s.rstN = true ∧ step s = .next t ∧ t.rstN = true ∧ t.block.prow ≠ s.block.prow)
    ∧ (∃ s t : State, s.rstN = true ∧ step s = .next t ∧ t.rstN = true ∧ t.block.pcol ≠ s.block.pcol)
    ∧ ∃ s t : State, s.rstN = true ∧ step s = .next t ∧ t.rstN = true ∧ t.block.op ≠ s.block.op :=
  ⟨⟨withBlock (sampling .wait .press 0 0b1011) [], _, by decide, rfl, by decide⟩,
    ⟨withBlock (sampling .wait .press 1 0b1110) [], _, by decide, rfl, by decide⟩,
    ⟨withBlock reported [.word 0x402], _, by decide, rfl, by decide⟩⟩

theorem witness_DoneAndKeyChangeOnlyByTheirRules :
    (∃ s t : State, s.rstN = true ∧ step s = .next t ∧ t.rstN = true ∧ t.block.stDone = true ∧ s.block.stDone = false
      ∧ t.block.stKey ≠ s.block.stKey)
    ∧ ∃ s t : State, s.rstN = true ∧ step s = .next t ∧ t.rstN = true ∧ t.block.stDone = false ∧ s.block.stDone = true
      ∧ t.block.stKey ≠ s.block.stKey ∧ s.acceptsNow = true :=
  ⟨⟨withBlock (sampling .scan .press 1 0b1011) [], _, by decide, rfl, by decide⟩,
    ⟨withBlock reported [.word 0x402], _, by decide, rfl, by decide⟩⟩

theorem witness_ErrChangesOnlyByItsRule :
    (∃ s t : State, s.rstN = true ∧ step s = .next t ∧ t.rstN = true ∧ s.rejectsNow = true ∧ s.block.stErr = false)
    ∧ ∃ s t : State, s.rstN = true ∧ step s = .next t ∧ t.rstN = true ∧ s.acceptsNow = true ∧ s.block.stErr = true :=
  ⟨⟨withBlock settling [.word 0x401], _, by decide, rfl, by decide⟩,
    ⟨withBlock { reported with stErr := true } [.word 0x401], _, by decide, rfl, by decide⟩⟩

theorem witness_ProgressDoesNotDependOnTheHost : ∃ s : State, s.block.busy = true ∧ s.block.fsm ≠ .rsvd11 :=
  ⟨withBlock (sampling .wait .release 3 0b1111) [.word 0x401], by decide⟩

theorem exampleKeymap_bijective : keymapBijective params2 := by
  have h : ∀ r c r' c' : LineIdx,
      keySymbol params2 ⟨r, c⟩ = keySymbol params2 ⟨r', c'⟩ → r = r' ∧ c = c' := by decide +revert
  rintro ⟨r, c⟩ ⟨r', c'⟩ he
  obtain ⟨rfl, rfl⟩ := h r c r' c' he
  rfl

theorem witness_SymbolTellsTheKeyUnderBijectiveMap :
    ∃ (p : Params) (b b' : Block), keymapBijective p ∧ b.ResultCoherent p ∧ b'.ResultCoherent p ∧ b.stKey = true
      ∧ b'.stKey = true ∧ b.res.extractLsb' 0 4 = b'.res.extractLsb' 0 4 :=
  ⟨params2, reported, reported, exampleKeymap_bijective, reported_coherent, reported_coherent, by decide⟩

theorem witness_PollRepeatsWhileBusy :
    (∃ (s : State) (gaps : List Nat) (gap : Nat) (rest : List HostLine), s.rstN = true ∧ s.block.fsm = .settle
      ∧ s.host = .poll gaps gap :: rest ∧ gaps.headD gap = 0)
    ∧ (∃ (s : State) (gaps : List Nat) (gap : Nat) (rest : List HostLine), s.rstN = true ∧ s.block.fsm = .settle
      ∧ s.host = .poll gaps gap :: rest ∧ gaps.headD gap = 3)
    ∧ (∃ (s : State) (gaps : List Nat) (gap : Nat) (rest : List HostLine), s.rstN = true ∧ s.block.fsm = .idle
      ∧ s.host = .poll gaps gap :: rest)
    ∧ (∃ (s : State) (rest : List HostLine), s.block.fsm ≠ .rsvd11 ∧ s.host = .nobus 1 :: rest)
    ∧ ∃ (s : State) (rest : List HostLine), s.block.fsm ≠ .rsvd11 ∧ s.host = .nobus 3 :: rest :=
  ⟨⟨withBlock settling [.poll [0, 3] 1, .word 0x200], [0, 3], 1, [.word 0x200], by decide⟩,
    ⟨withBlock settling [.poll [] 3, .word 0x200], [], 3, [.word 0x200], by decide⟩,
    ⟨idleWith [.poll [] 0], [], 0, [], by decide⟩, ⟨withBlock settling [.nobus 1], [], by decide⟩,
    ⟨withBlock settling [.nobus 3, .poll [] 3], [.poll [] 3], by decide⟩⟩

theorem witness_PhaseTiming_and_SampleAge :
    ∃ s : State, s.Inv ∧ s.noReset ∧ s.block.fsm = .settle ∧ s.block.cnt = 0 :=
  ⟨withBlock settling [.word 0x401], inv_of_checks _ (by decide), ⟨by decide, by decide⟩, by decide⟩

theorem witness_IdealKeypadRows :
    (∃ (s : State) (k : Key), s.Inv ∧ s.rows = .keypad (some k) ∧ settleConstraint s.params = true ∧ s.block.fsm = .settle
      ∧ s.block.cnt + 2 = s.params.settleCycles ∧ s.block.cnt ≤ s.rowsHeld ∧ k.col = s.block.colIdx)
    ∧ (∃ (s : State) (k : Key), s.Inv ∧ s.rows = .keypad (some k) ∧ settleConstraint s.params = true
      ∧ s.block.fsm = .settle ∧ s.block.cnt + 2 = s.params.settleCycles ∧ s.block.cnt ≤ s.rowsHeld ∧ k.col ≠ s.block.colIdx)
    ∧ ∃ s : State, s.Inv ∧ s.rows = .keypad none ∧ settleConstraint s.params = true
      ∧ s.block.fsm = .settle ∧ s.block.cnt + 2 = s.params.settleCycles ∧ s.block.cnt ≤ s.rowsHeld :=
  ⟨⟨{ withBlock settling [] with rows := .keypad (some ⟨3, 0⟩) }, ⟨3, 0⟩, inv_of_checks _ (by decide), by decide⟩,
    ⟨{ withBlock settling [] with rows := .keypad (some ⟨3, 2⟩) }, ⟨3, 2⟩, inv_of_checks _ (by decide), by decide⟩,
    ⟨withBlock settling [], inv_of_checks _ (by decide), by decide⟩⟩

theorem witness_SettleViolationLeavesTheSampleFree :
    ∃ (s : State) (pressed : Option Key), s.rows = .keypad pressed ∧ settleConstraint s.params = false
      ∧ s.block.fsm = .settle ∧ s.block.cnt + 2 = s.params.settleCycles :=
  ⟨{ withBlock settling [] with params := paramsSlow }, none, by decide⟩

theorem witness_ScanOnceReportsTheFirstHit :
    ∃ s : State, s.Inv ∧ s.noReset ∧ s.block.fsm = .idle ∧ s.transaction = some .wrCtrlScanOnce :=
  ⟨{ idleWith [.word 0x401, .word 0x402] with env := [⟨true, .unknown⟩] }, inv_of_checks _ (by decide),
    ⟨by decide, by decide⟩, by decide⟩

theorem witness_ScanOnceFindsTheHeldKey :
    ∃ (s : State) (k : Key), s.Inv ∧ s.steady ∧ s.rows = .keypad (some k) ∧ settleConstraint s.params = true
      ∧ s.block.fsm = .idle ∧ s.transaction = some .wrCtrlScanOnce :=
  ⟨{ idleWith [.word 0x401, .word 0x402] with rows := .keypad (some ⟨2, 3⟩) }, ⟨2, 3⟩, inv_of_checks _ (by decide),
    ⟨by decide, by decide⟩, by decide⟩

theorem witness_ScanOnceOnAnIdleKeypad :
    ∃ s : State, s.Inv ∧ s.steady ∧ s.rows = .keypad none ∧ settleConstraint s.params = true
      ∧ s.block.fsm = .idle ∧ s.transaction = some .wrCtrlScanOnce :=
  ⟨idleWith [.word 0x401, .poll [] 0], inv_of_checks _ (by decide), ⟨by decide, by decide⟩, by decide⟩

theorem witness_WaitDetectsTheHeldKey :
    ∃ (s : State) (k : Key), s.Inv ∧ s.steady ∧ s.rows = .keypad (some k) ∧ settleConstraint s.params = true
      ∧ s.block.fsm = .idle ∧ s.transaction = some .wrCtrlWaitKeypress :=
  ⟨{ idleWith [.word 0x402, .poll [] 0] with rows := .keypad (some ⟨1, 1⟩) }, ⟨1, 1⟩, inv_of_checks _ (by decide),
    ⟨by decide, by decide⟩, by decide⟩

theorem witness_WaitReportsTheLatchedKeyOnRelease :
    ∃ s : State, s.Inv ∧ s.steady ∧ s.rows = .keypad none ∧ settleConstraint s.params = true ∧ s.block.fsm = .settle
      ∧ s.block.colIdx = 0 ∧ s.block.cnt = 0 ∧ s.block.op = .wait ∧ s.block.wph = .release :=
  ⟨withBlock { settling with op := .wait, wph := .release, prow := 2, pcol := 1 } [.poll [] 0], inv_of_checks _ (by decide),
    ⟨by decide, by decide⟩, by decide⟩

theorem witness_WaitNeverCompletesWithoutPressAndRelease :
    (∃ s : State, s.Inv ∧ s.steady ∧ s.rows = .keypad none ∧ settleConstraint s.params = true
      ∧ s.block.fsm = .idle ∧ s.transaction = some .wrCtrlWaitKeypress)
    ∧ ∃ s : State, s.Inv ∧ s.steady ∧ s.rows = .keypad (some ⟨1, 1⟩) ∧ settleConstraint s.params = true
      ∧ s.block.fsm = .idle ∧ s.transaction = some .wrCtrlWaitKeypress :=
  ⟨⟨idleWith [.word 0x402, .poll [] 0], inv_of_checks _ (by decide), ⟨by decide, by decide⟩, by decide⟩,
    ⟨{ idleWith [.word 0x402, .poll [] 0] with rows := .keypad (some ⟨1, 1⟩) }, inv_of_checks _ (by decide),
      ⟨by decide, by decide⟩, by decide⟩⟩

theorem witness_StuckActiveRow :
    (∃ s : State, s.Inv ∧ s.noReset ∧ s.stuckActive 2 ∧ s.block.fsm = .idle ∧ s.transaction = some .wrCtrlScanOnce)
    ∧ ∃ s : State, s.Inv ∧ s.noReset ∧ s.stuckActive 2 ∧ s.block.fsm = .idle
      ∧ s.transaction = some .wrCtrlWaitKeypress :=
  ⟨⟨{ idleWith [.word 0x401] with rows := .lines 0b1011, env := [⟨true, .lines 0b0000⟩, ⟨true, .lines 0b1010⟩] },
      inv_of_checks _ (by decide), ⟨by decide, by decide⟩, ⟨by decide, by decide⟩, by decide⟩,
    ⟨{ idleWith [.word 0x402] with rows := .lines 0b1011, env := [⟨true, .lines 0b0000⟩, ⟨true, .lines 0b1010⟩] },
      inv_of_checks _ (by decide), ⟨by decide, by decide⟩, ⟨by decide, by decide⟩, by decide⟩⟩

end Sys2Proof.Tests
end

/-! PROOFS. The family 10_state.md: what a step does to each state element. -/

namespace Sys2Proof.Machine

/-! ### The report registers: DONE, KEY and RESULT -/

/-- `b'` reports what `b` reports: the same DONE, KEY and RESULT. -/
structure Block.SameReport (b b' : Block) : Prop where
  stDone : b'.stDone = b.stDone
  stKey : b'.stKey = b.stKey
  res : b'.res = b.res

/-- What a completion edge leaves (R87, R97): idle, with DONE and a coherent RESULT. -/
structure Block.Completed (p : Params) (b : Block) : Prop where
  fsm : b.fsm = .idle
  stDone : b.stDone = true
  coherent : b.ResultCoherent p

theorem resultCoherent_of_not_done {p : Params} {b : Block} (hd : b.stDone = false) (hk : b.stKey = false) :
    b.ResultCoherent p := ⟨by simp [hk], by simp [hd]⟩

theorem resultCoherent_of_noKey {p : Params} {b : Block} (hk : b.stKey = false) (hr : b.res = 0x00) :
    b.ResultCoherent p := ⟨by simp [hk], fun _ _ => hr⟩

theorem resultCoherent_of_key {p : Params} {b : Block} {k : Key} (hk : b.stKey = true)
    (hr : b.res = resultWord k (keySymbol p k)) : b.ResultCoherent p := ⟨fun _ => ⟨k, hr⟩, by simp [hk]⟩

/-- Coherence speaks of the report registers alone. -/
theorem resultCoherent_of_sameReport {p : Params} {b b' : Block} (h : b.SameReport b') (hb : b.ResultCoherent p) :
    b'.ResultCoherent p :=
  ⟨by simpa only [h.stKey, h.res] using hb.key_word, by simpa only [h.stDone, h.stKey, h.res] using hb.no_key⟩

theorem reset_resultCoherent (p : Params) : Block.reset.ResultCoherent p := resultCoherent_of_not_done rfl rfl

theorem sameReport_startPhase (c : LineIdx) (b : Block) : b.SameReport (b.startPhase c) := ⟨rfl, rfl, rfl⟩

theorem sameReport_latchPress (k : Key) (b : Block) : b.SameReport (b.latchPress k) := ⟨rfl, rfl, rfl⟩

theorem completed_complete_noKey (p : Params) (b : Block) : (b.complete .noKey).Completed p :=
  ⟨rfl, rfl, resultCoherent_of_noKey rfl rfl⟩

theorem completed_complete_hit (p : Params) (k : Key) (b : Block) : (b.complete (.hit k (keySymbol p k))).Completed p :=
  ⟨rfl, rfl, resultCoherent_of_key rfl rfl⟩

theorem completed_completeWait (p : Params) (b pre : Block) : (b.completeWait p pre).Completed p :=
  ⟨rfl, rfl, resultCoherent_of_key rfl rfl⟩

theorem completed_complete {p : Params} {o : ScanOutcome} (ho : ∀ k sym, o = .hit k sym → sym = keySymbol p k)
    (b : Block) : (b.complete o).Completed p := by
  cases o with
  | noKey => exact completed_complete_noKey p b
  | hit k sym =>
    obtain rfl := ho k sym rfl
    exact completed_complete_hit p k b

/-- A scan that ends starts another one, with the report untouched, or completes the command (R86). -/
theorem scanEnd_report {p : Params} {o : ScanOutcome} (ho : ∀ k sym, o = .hit k sym → sym = keySymbol p k)
    (b pre : Block) : b.SameReport (b.scanEnd p o pre) ∨ (b.scanEnd p o pre).Completed p := by
  obtain ⟨-, h⟩ | ⟨-, -, -, h⟩ | ⟨-, -, k, -, -, h⟩ | ⟨-, -, -, h⟩ | ⟨-, -, -, h⟩ := scanEnd_cases p o b pre <;> rw [h]
  · exact .inr (completed_complete ho b)
  · exact .inl (sameReport_startPhase 0 b)
  · exact .inl (sameReport_latchPress k b)
  · exact .inl (sameReport_startPhase 0 b)
  · exact .inr (completed_completeWait p b pre)

theorem sampleStep_report (p : Params) (b pre : Block) :
    b.SameReport (b.sampleStep p pre) ∨ (b.sampleStep p pre).Completed p := by
  obtain ⟨-, -, h⟩ | ⟨-, -, h⟩ | ⟨r, -, h⟩ := sampleStep_cases p b pre <;> rw [h]
  · exact .inl (sameReport_startPhase _ b)
  · exact scanEnd_report (by simp) b pre
  · exact scanEnd_report (by rintro _ _ ⟨⟩; rfl) b pre

/-- The FSM writes the report registers at a completion, which ends a sample cycle, and nowhere else (R32, R33, R35). -/
theorem fsmStep_report (p : Params) (b pre : Block) :
    b.SameReport (b.fsmStep p pre) ∨ (pre.fsm = .sample ∧ (b.fsmStep p pre).Completed p) := by
  obtain ⟨-, h⟩ | ⟨-, -, h⟩ | ⟨-, -, h⟩ | ⟨hf, h⟩ := fsmStep_cases p b pre <;> rw [h]
  · exact .inl ⟨rfl, rfl, rfl⟩
  · exact .inl ⟨rfl, rfl, rfl⟩
  · exact .inl ⟨rfl, rfl, rfl⟩
  · exact (sampleStep_report p b pre).imp_right fun hc => ⟨hf, hc⟩

/-! ### The latched key and the operation -/

theorem activeRows_ne_zero_of_lowestSet {m : Lines} {r : LineIdx} (h : lowestSet m = some r) : m ≠ 0 := by
  rintro rfl
  cases h

/-- A scan that ends latches a key only at press detection (R95). -/
theorem scanEnd_latch (p : Params) (o : ScanOutcome) (b pre : Block) :
    ((b.scanEnd p o pre).prow = b.prow ∧ (b.scanEnd p o pre).pcol = b.pcol)
    ∨ (pre.op = .wait ∧ pre.wph = .press ∧ o ≠ .noKey) := by
  obtain ⟨-, h⟩ | ⟨-, -, -, h⟩ | ⟨hop, hw, k, sym, rfl, -⟩ | ⟨-, -, -, h⟩ | ⟨-, -, -, h⟩ := scanEnd_cases p o b pre
  case inr.inr.inl => exact .inr ⟨hop, hw, nofun⟩
  case inl => left; rw [h]; cases o <;> exact ⟨rfl, rfl⟩
  all_goals left; rw [h]; exact ⟨rfl, rfl⟩

/-- The FSM writes the latched key at press detection and nowhere else (R25, R95). -/
theorem fsmStep_latch (p : Params) (b pre : Block) :
    ((b.fsmStep p pre).prow = b.prow ∧ (b.fsmStep p pre).pcol = b.pcol)
    ∨ (pre.fsm = .sample ∧ pre.op = .wait ∧ pre.wph = .press ∧ activeRows pre.s2 ≠ 0) := by
  obtain ⟨-, h⟩ | ⟨-, -, h⟩ | ⟨-, -, h⟩ | ⟨hf, h⟩ := fsmStep_cases p b pre <;> rw [h]
  iterate 3 exact .inl ⟨rfl, rfl⟩
  obtain ⟨-, -, h⟩ | ⟨-, -, h⟩ | ⟨r, hr, h⟩ := sampleStep_cases p b pre <;> rw [h]
  · exact .inl ⟨rfl, rfl⟩
  · exact (scanEnd_latch p .noKey b pre).imp_right fun ⟨_, _, hne⟩ => absurd rfl hne
  · exact (scanEnd_latch p _ b pre).imp_right fun ⟨hop, hw, _⟩ => ⟨hf, hop, hw, activeRows_ne_zero_of_lowestSet hr⟩

theorem scanEnd_op (p : Params) (o : ScanOutcome) (b pre : Block) : (b.scanEnd p o pre).op = b.op := by
  obtain ⟨-, h⟩ | ⟨-, -, -, h⟩ | ⟨-, -, k, sym, -, h⟩ | ⟨-, -, -, h⟩ | ⟨-, -, -, h⟩ := scanEnd_cases p o b pre <;> rw [h]
  case inl => cases o <;> rfl
  all_goals rfl

/-- No FSM action writes `op` (R15). -/
@[simp] theorem fsmStep_op (p : Params) (b pre : Block) : (b.fsmStep p pre).op = b.op := by
  obtain ⟨-, h⟩ | ⟨-, -, h⟩ | ⟨-, -, h⟩ | ⟨-, h⟩ := fsmStep_cases p b pre <;> rw [h]
  obtain ⟨-, -, h⟩ | ⟨-, -, h⟩ | ⟨r, -, h⟩ := sampleStep_cases p b pre <;> rw [h]
  · rfl
  · exact scanEnd_op p _ b pre
  · exact scanEnd_op p _ b pre

/-! ### The step -/

/-- A cycle with reset asserted in it, or in the one after it, ends with the registers at their reset values (R132). -/
theorem step_block_of_reset {s t : State} (h : step s = .next t) (hr : s.rstN = false ∨ t.rstN = false) :
    t.block = Block.reset := by
  obtain ⟨-, rfl⟩ | ⟨hs, -, u, rfl, -⟩ := step_cases h
  · simp
  · have : s.nextEnv.rstN = false := by simpa [hs] using hr
    simp [this]

/-- An acceptance names the operation it starts, and finds the block idle (R110). -/
theorem acceptsNow_eq_true {s : State} (h : s.acceptsNow = true) : s.block.fsm = .idle ∧ ∃ o, s.startsNow = some o := by
  simpa [State.acceptsNow, Block.busy, Option.isSome_iff_exists, and_comm] using h

/-- The registers after a live cycle that no reset follows: those of an accepted command, or what the FSM's own step gives with
ERR set by a rejection; in either case with the synchroniser shifted (R110, R124). -/
theorem step_block_cases {s t : State} (h : step s = .next t) (hr : s.rstN = true) (hr' : t.rstN = true) :
    (s.acceptsNow = true ∧ ∃ o, s.startsNow = some o ∧ t.block = (s.block.accept o).rowSync s.rowN s.block)
    ∨ (s.acceptsNow = false
      ∧ t.block = ({ s.block.fsmStep s.params s.block with
          stErr := s.block.stErr || s.rejectsNow } : Block).rowSync s.rowN s.block) := by
  rw [step_block h hr hr', hostBlock_eq, Block.edge]
  cases ha : s.acceptsNow
  · exact .inr ⟨rfl, by rw [← fsmStep_stErr]; rfl⟩
  · obtain ⟨hf, o, ho⟩ := acceptsNow_eq_true ha
    exact .inl ⟨rfl, o, ho, by simp [fsmStep_idle hf, ho]⟩

/-- What a live cycle does to the report: an accepted command clears DONE and KEY; else the report stays, or the command
completes at the end of a sample cycle (R32, R33, R35). -/
theorem step_report {s t : State} (h : step s = .next t) (hr : s.rstN = true) (hr' : t.rstN = true) :
    (s.acceptsNow = true ∧ t.block.stDone = false ∧ t.block.stKey = false ∧ t.block.res = s.block.res)
    ∨ (s.acceptsNow = false ∧ s.block.SameReport t.block)
    ∨ (s.acceptsNow = false ∧ s.block.fsm = .sample ∧ t.block.Completed s.params) := by
  obtain ⟨ha, o, -, hb⟩ | ⟨ha, hb⟩ := step_block_cases h hr hr' <;> rw [hb]
  · exact .inl ⟨ha, rfl, rfl, rfl⟩
  · obtain ⟨hd, hk, hres⟩ | ⟨hf, hidle, hd, hkey, hno⟩ := fsmStep_report s.params s.block s.block
    · exact .inr (.inl ⟨ha, hd, hk, hres⟩)
    · exact .inr (.inr ⟨ha, hf, hidle, hd, hkey, hno⟩)

/-- STATUS as read after reset (R28, R38). -/
theorem reset_status : Block.reset.status = 0x00 := by decide

/-! ### The statements -/

/-- Settles O42: every step resets the registers, keeps or clears the report, or completes a command. -/
theorem resultWordStaysCoherent : Obligations.ResultWordStaysCoherent := by
  refine ⟨reset_resultCoherent, fun s t hs h => ?_⟩
  obtain ⟨hparams, -⟩ := step_agents h
  rw [hparams]
  by_cases hreset : s.rstN = false ∨ t.rstN = false
  · rw [step_block_of_reset h hreset]
    exact reset_resultCoherent _
  · obtain ⟨hr, hr'⟩ : s.rstN = true ∧ t.rstN = true := by simpa using hreset
    obtain ⟨-, hd, hk, -⟩ | ⟨-, hsame⟩ | ⟨-, -, hc⟩ := step_report h hr hr'
    · exact resultCoherent_of_not_done hd hk
    · exact resultCoherent_of_sameReport hsame hs
    · exact hc.coherent

/-- Settles O14: the transaction and the FSM leave `s1` and `s2` to the shift that the edge adds. -/
theorem synchroniserShiftsAtEveryEdge : Obligations.SynchroniserShiftsAtEveryEdge := by
  intro s t hr h hr'
  rw [step_block h hr hr']
  exact ⟨edge_s1 .., edge_s2 ..⟩

/-- Settles O43: an acceptance and a kept report both leave `res`, so the command completed. -/
theorem resultChangesOnlyAtCompletion : Obligations.ResultChangesOnlyAtCompletion := by
  intro s t hr h hr' hne
  obtain ⟨-, -, -, hres⟩ | ⟨-, hsame⟩ | ⟨-, hf, hc⟩ := step_report h hr hr'
  · exact absurd hres hne
  · exact absurd hsame.res hne
  · exact ⟨hf, hc.fsm, hc.stDone⟩

/-- Settles O44: an accepted command writes `op` and keeps the latched key; the FSM keeps `op` and latches a key only at press
detection. -/
theorem latchAndOpChangeOnlyByTheirRules : Obligations.LatchAndOpChangeOnlyByTheirRules := by
  intro s t hr h hr'
  obtain ⟨ha, o, ho, hb⟩ | ⟨-, hb⟩ := step_block_cases h hr hr' <;> rw [hb]
  · exact ⟨by simp, fun _ => ⟨ha, by simp [ho]⟩⟩
  · obtain ⟨hrow, hcol⟩ | hpress := fsmStep_latch s.params s.block s.block
    · exact ⟨by simp [hrow, hcol], by simp⟩
    · exact ⟨fun _ => hpress, by simp⟩

/-- Settles O45: each clause read off the three things a cycle can do to the report. -/
theorem doneAndKeyChangeOnlyByTheirRules : Obligations.DoneAndKeyChangeOnlyByTheirRules := by
  intro s t hr h hr'
  obtain ⟨ha, hd, hk, -⟩ | ⟨ha, hsame⟩ | ⟨ha, hf, hc⟩ := step_report h hr hr'
  · simp [ha, hd, hk]
  · simp +contextual [ha, hsame.stDone, hsame.stKey]
  · simp [ha, hf, hc.fsm, hc.stDone]

/-- Settles O46: an acceptance clears ERR, and any other cycle adds a rejection to what ERR was. -/
theorem errChangesOnlyByItsRule : Obligations.ErrChangesOnlyByItsRule := by
  refine ⟨fun _ => rfl, fun s t hr h hr' => ?_⟩
  obtain ⟨ha, o, -, hb⟩ | ⟨ha, hb⟩ := step_block_cases h hr hr' <;> simp [ha, hb]

/-- Settles O8: the registers of `State.resetWith p` are `Block.reset`, whose values are literals. -/
theorem resetValues : Obligations.ResetValues := by
  intro p
  exact ⟨rfl, rfl, rfl, rfl, rfl, rfl, rfl, rfl, rfl, rfl, rfl, rfl, rfl, rfl, rfl, reset_status, rfl⟩

/-- Settles O11: `exec` answers every transaction, and the step ends its cycle with the edge. -/
theorem stepRunsTheTransaction : Obligations.StepRunsTheTransaction := by
  intro s i hr hf hsel hdec _
  have ht : s.transaction = some i := by rw [State.transaction, if_pos hsel, hdec]
  obtain ⟨u, hu⟩ := exec_answers i s
  rw [step_some hr hf ht hu, hu]

/-- Settles O17: the stuck case of `step`, and its reset case, which leaves the reset registers. -/
theorem reservedFsmEncodingIsStuck : Obligations.ReservedFsmEncodingIsStuck := by
  intro s hf
  refine ⟨fun hr => step_stuck hr hf, fun hr => ⟨_, step_reset hr, ?_⟩⟩
  rw [step_block_of_reset (step_reset hr) (.inl hr)]
  rfl

end Sys2Proof.Machine

/-! PROOFS. The family 20_memory.md: what a transaction returns to the host, and what it leaves unchanged. -/

namespace Sys2Proof

/-- The transactions that store nothing: all but the start commands and the reserved operation (R44, R45, R105). -/
def Instr.storesNothing : Instr → Bool
  | .wrCtrlScanOnce | .wrCtrlWaitKeypress | .wrCtrlRsvdOp => false
  | .wrCtrlNop | .wrStatus _ | .wrResult _ | .wrRsvd3 _ => true
  | .rdCtrl | .rdStatus | .rdResult | .rdRsvd3 => true

/-- The address a read reads (R58); a write has none. -/
def Instr.readAddr : Instr → Option RegAddr
  | .rdCtrl => some 0
  | .rdStatus => some 1
  | .rdResult => some 2
  | .rdRsvd3 => some 3
  | .wrCtrlNop | .wrCtrlScanOnce | .wrCtrlWaitKeypress | .wrCtrlRsvdOp => none
  | .wrStatus _ | .wrResult _ | .wrRsvd3 _ => none

/-- The words of a start command or of the reserved operation are CTRL writes with `wdata[1:0]` other than 00 (R56, R58). -/
theorem ctrlCommand_of_storesNothing_eq_false {w : Txn} (h : (decodeWord w).storesNothing = false) :
    w &&& 0x700 = 0x400 ∧ w &&& 0x703 ≠ 0x400 := by
  unfold decodeWord at h
  split at h
  case h_1 h10 h9 h8 =>
    constructor
    · simp only [Nat.reduceLT, BitVec.getLsbD_eq_getElem] at h10 h9 h8
      refine BitVec.eq_of_getElem_eq fun i hi => ?_
      interval_cases i <;> simp [h10, h9, h8]
    · intro hw
      have h1 : w.getLsbD 1 = false := by simpa using congrArg (·.getLsbD 1) hw
      have h0 : w.getLsbD 0 = false := by simpa using congrArg (·.getLsbD 0) hw
      rw [h1, h0] at h
      cases h
  all_goals cases h

theorem storesNothing_decodeWord {w : Txn} (h : w &&& 0x700 ≠ 0x400 ∨ w &&& 0x703 = 0x400) :
    (decodeWord w).storesNothing = true := by
  by_contra hs
  obtain ⟨h7, h3⟩ := ctrlCommand_of_storesNothing_eq_false (by simpa using hs)
  exact h.elim (· h7) h3

end Sys2Proof

namespace Sys2Proof.Machine

/-! ### The register space -/

theorem regAddr_cases (a : RegAddr) : a = 0 ∨ a = 1 ∨ a = 2 ∨ a = 3 := by
  revert a
  decide

@[simp] theorem readReg_ctrl (b : Block) : b.readReg 0 = 0x00 := rfl
@[simp] theorem readReg_status (b : Block) : b.readReg 1 = b.status := rfl
@[simp] theorem readReg_result (b : Block) : b.readReg 2 = b.res := rfl
@[simp] theorem readReg_rsvd3 (b : Block) : b.readReg 3 = 0x00 := rfl

/-- The bus carries the addressed register in a read cycle without reset (R48). -/
theorem busRdata_of_read {s : State} (hr : s.rstN = true) (hsel : s.bus.sel = true) (hwe : s.bus.we = false) :
    s.busRdata = s.block.readReg s.bus.addr := by simp [State.busRdata, hr, hsel, hwe]

/-! ### The transaction on the pins -/

/-- The word on the pins, bit by bit: `wdata` below `addr` below `we` (R54). -/
theorem getLsbD_toWord (b : BusPins) (n : Nat) :
    b.toWord.getLsbD n = if n < 8 then b.wdata.getLsbD n
      else if n - 8 < 2 then b.addr.getLsbD (n - 8) else (BitVec.ofBool b.we).getLsbD (n - 8 - 2) := by
  rw [← BitVec.getLsbD_append]
  exact BitVec.getLsbD_append

theorem toWord_we (b : BusPins) : b.toWord.getLsbD 10 = b.we := by simpa using getLsbD_toWord b 10
theorem toWord_addr_one (b : BusPins) : b.toWord.getLsbD 9 = b.addr.getLsbD 1 := getLsbD_toWord b 9
theorem toWord_addr_zero (b : BusPins) : b.toWord.getLsbD 8 = b.addr.getLsbD 0 := getLsbD_toWord b 8

theorem readAddr_decodeCtrlOp (op1 op0 : Bool) : (decodeCtrlOp op1 op0).readAddr = none := by
  cases op1 <;> cases op0 <;> rfl

/-- A word with `we = 0` reads the address on the pins, any other reads none (R54, R58). -/
theorem readAddr_decodeWord_toWord (b : BusPins) :
    (decodeWord b.toWord).readAddr = if b.we then none else some b.addr := by
  rw [decodeWord, toWord_we, toWord_addr_one, toWord_addr_zero]
  cases b.we
  · obtain ha | ha | ha | ha := regAddr_cases b.addr <;> rw [ha] <;> rfl
  · obtain ha | ha | ha | ha := regAddr_cases b.addr <;> rw [ha]
    · exact readAddr_decodeCtrlOp ..
    all_goals rfl

theorem transaction_eq_none {s : State} : s.transaction = none ↔ s.bus.sel = false := by
  simp [State.transaction]

theorem transaction_eq_some {s : State} {i : Instr} :
    s.transaction = some i ↔ s.bus.sel = true ∧ decodeWord s.bus.toWord = i := by
  simp [State.transaction]

/-! ### What a transaction returns, and what it leaves -/

/-- A transaction returns the value of the register it reads, if it reads one. -/
theorem exec_returned {i : Instr} {s t : State} (h : exec i s = .next t) :
    t.returned = s.returned ++ (i.readAddr.map s.block.readReg).toList := by
  cases i <;> cases h <;> simp [Instr.readAddr]

theorem hostBlock_of_storesNothing {i : Instr} (h : i.storesNothing = true) (b : Block) : hostBlock i b = b := by
  cases i
  case wrCtrlScanOnce | wrCtrlWaitKeypress | wrCtrlRsvdOp => cases h
  all_goals rfl

/-- A transaction that stores nothing changes at most the list of values returned (R44, R45). -/
theorem exec_storesNothing {i : Instr} {s t : State} (hi : i.storesNothing = true) (h : exec i s = .next t) :
    t = { s with returned := t.returned } := by
  have hb : t.block = s.block := by rw [exec_block h, hostBlock_of_storesNothing hi]
  obtain ⟨hp, hr, hrows, hheld, henv, hhost, hc⟩ := exec_agents h
  rw [← hb, ← hp, ← hr, ← hrows, ← hheld, ← henv, ← hhost, ← hc]

/-! ### The host's script at an edge -/

/-- A cycle without a transaction depends on the host's script only by what is left of it afterwards. -/
theorem clockEdge_withHost {s : State} {host : List HostLine}
    (h : hostAfter (State.busRdata { s with host := host }) host = hostAfter s.busRdata s.host) :
    clockEdge { s with host := host } { s with host := host } = clockEdge s s := by
  simp only [clockEdge, nextCycle, h]
  rfl

/-! ### The statements -/

/-- Settles O25: a reset cycle lists what the pins carry, and the word of a live cycle is a read exactly if `we = 0`, of the
address on the pins. -/
theorem readsReturnTheBusValue : Obligations.ReadsReturnTheBusValue := by
  constructor
  · intro s t h
    obtain ⟨-, rfl⟩ | ⟨hr, -, u, rfl, -, -, hnone, hsome⟩ := step_cases h
    · simp
    · rw [clockEdge_returned]
      cases ht : s.transaction with
      | none => simp [hnone ht, transaction_eq_none.mp ht]
      | some i =>
        obtain ⟨hsel, rfl⟩ := transaction_eq_some.mp ht
        rw [exec_returned (hsome _ ht), readAddr_decodeWord_toWord]
        cases hwe : s.bus.we <;> simp [hsel, hwe, busRdata_of_read hr]
  · intro s hr hsel hwe
    rw [busRdata_of_read hr hsel hwe]
    obtain ha | ha | ha | ha := regAddr_cases s.bus.addr <;> rw [ha] <;> rfl

/-- Settles O27: such a transaction changes at most the values returned, and of them only a read adds one. -/
theorem readAndIgnoredWriteFrame : Obligations.ReadAndIgnoredWriteFrame := by
  intro i v s t hi h
  have hs : i.storesNothing = true := by
    simp only [List.mem_cons, List.not_mem_nil, or_false] at hi
    rcases hi with rfl | rfl | rfl | rfl | rfl | rfl | rfl | rfl <;> rfl
  have hw : i ∈ [.wrCtrlNop, .wrStatus v, .wrResult v, .wrRsvd3 v] → i.readAddr = none := by
    simp only [List.mem_cons, List.not_mem_nil, or_false]
    rintro (rfl | rfl | rfl | rfl) <;> rfl
  have hret := exec_returned h
  rw [exec_storesNothing hs h]
  exact ⟨rfl, rfl, rfl, rfl, rfl, rfl, rfl, rfl, fun _ => rfl, fun hi => by simp [hret, hw hi]⟩

/-- Settles O29: up to the values returned both cycles end with the edge of `s`, and both leave `rest` of the script. -/
theorem ignoredTransactionsLeaveTheCycleAlone : Obligations.IgnoredTransactionsLeaveTheCycleAlone := by
  intro s w rest hr hf hhost hw
  obtain ⟨u, hu⟩ := exec_answers (decodeWord w) s
  refine ⟨_, _, step_some hr hf (transaction_word hhost) hu, step_none hr hf (transaction_nobus rfl), ?_⟩
  have hidle : clockEdge { s with host := .nobus 1 :: rest } { s with host := .nobus 1 :: rest } = clockEdge s s :=
    clockEdge_withHost (by rw [hhost]; rfl)
  rw [hidle, exec_storesNothing (storesNothing_decodeWord hw) hu]
  rfl

end Sys2Proof.Machine

/-! PROOFS. The family 30_encoding.md: words and transactions, symbols and lines, and the host's script. -/

namespace Sys2Proof

/-! ### The fields of a transaction word: `T[10:8]` above `wdata` (R54) -/

/-- The word with `we` and `addr` as in `row` and `wdata = v`. -/
def txnOf (row : BitVec 3) (v : Byte) : Txn := row ++ v

theorem txnOf_extractLsb' (t : Txn) : txnOf (t.extractLsb' 8 3) (t.extractLsb' 0 8) = t :=
  BitVec.extractLsb'_append_extractLsb' (w := 3) (len := 8)

theorem getLsbD_txnOf (row : BitVec 3) (v : Byte) (n : Nat) :
    (txnOf row v).getLsbD n = if n < 8 then v.getLsbD n else row.getLsbD (n - 8) := BitVec.getLsbD_append

theorem txnWdata_txnOf (row : BitVec 3) (v : Byte) : txnWdata (txnOf row v) = v := BitVec.extractLsb'_append_eq_right

theorem txnOf_and (row row' : BitVec 3) (v v' : Byte) :
    txnOf row v &&& txnOf row' v' = txnOf (row &&& row') (v &&& v') := BitVec.and_append

theorem txnOf_and_rowMask (row : BitVec 3) (v : Byte) : txnOf row v &&& 0x700 = txnOf row 0 := by
  have hmask : (0x700 : Txn) = txnOf (BitVec.allOnes 3) 0 := rfl
  rw [hmask, txnOf_and, BitVec.and_allOnes]
  exact congrArg _ BitVec.and_zero

theorem txnOf_and_ctrlMask (row : BitVec 3) (v : Byte) : txnOf row v &&& 0x703 = txnOf row (v &&& 0b11) := by
  have hmask : (0x703 : Txn) = txnOf (BitVec.allOnes 3) 0b11 := rfl
  rw [hmask, txnOf_and, BitVec.and_allOnes]

/-! ### The decoder, row by row (R58) -/

theorem decodeWord_rdCtrl (v : Byte) : decodeWord (txnOf 0b000 v) = .rdCtrl := by
  simp only [decodeWord, getLsbD_txnOf]; rfl
theorem decodeWord_rdStatus (v : Byte) : decodeWord (txnOf 0b001 v) = .rdStatus := by
  simp only [decodeWord, getLsbD_txnOf]; rfl
theorem decodeWord_rdResult (v : Byte) : decodeWord (txnOf 0b010 v) = .rdResult := by
  simp only [decodeWord, getLsbD_txnOf]; rfl
theorem decodeWord_rdRsvd3 (v : Byte) : decodeWord (txnOf 0b011 v) = .rdRsvd3 := by
  simp only [decodeWord, getLsbD_txnOf]; rfl
theorem decodeWord_wrCtrl (v : Byte) : decodeWord (txnOf 0b100 v) = decodeCtrlOp (v.getLsbD 1) (v.getLsbD 0) := by
  simp only [decodeWord, getLsbD_txnOf]; rfl
theorem decodeWord_wrStatus (v : Byte) : decodeWord (txnOf 0b101 v) = .wrStatus v := by
  simp only [decodeWord, getLsbD_txnOf, txnWdata_txnOf]; rfl
theorem decodeWord_wrResult (v : Byte) : decodeWord (txnOf 0b110 v) = .wrResult v := by
  simp only [decodeWord, getLsbD_txnOf, txnWdata_txnOf]; rfl
theorem decodeWord_wrRsvd3 (v : Byte) : decodeWord (txnOf 0b111 v) = .wrRsvd3 v := by
  simp only [decodeWord, getLsbD_txnOf, txnWdata_txnOf]; rfl

theorem row_cases (row : BitVec 3) :
    row = 0b000 ∨ row = 0b001 ∨ row = 0b010 ∨ row = 0b011 ∨ row = 0b100 ∨ row = 0b101 ∨ row = 0b110 ∨ row = 0b111 := by
  revert row
  decide

/-! ### The round trips -/

theorem decodeWord_encode (i : Instr) : decodeWord (encode i) = i := by
  cases i with
  | wrStatus v => exact decodeWord_wrStatus v
  | wrResult v => exact decodeWord_wrResult v
  | wrRsvd3 v => exact decodeWord_wrRsvd3 v
  | wrCtrlNop | wrCtrlScanOnce | wrCtrlWaitKeypress | wrCtrlRsvdOp => rfl
  | rdCtrl | rdStatus | rdResult | rdRsvd3 => rfl

/-- R57: the canonical word of a command keeps the two bits that choose it. -/
theorem encode_decodeCtrlOp (v : Byte) :
    encode (decodeCtrlOp (v.getLsbD 1) (v.getLsbD 0)) = txnOf 0b100 (v &&& 0b11) := by
  have hv : v &&& 0b11 = ((BitVec.ofBool (v.getLsbD 1)).concat (v.getLsbD 0)).setWidth 8 := by
    refine BitVec.eq_of_getElem_eq fun i hi => ?_
    interval_cases i <;> simp [BitVec.getElem_concat]
  rw [hv]
  cases v.getLsbD 1 <;> cases v.getLsbD 0 <;> rfl

theorem encode_decodeWord (t : Txn) : encode (decodeWord t)
    = if t.getLsbD 10 = false then t &&& 0x700 else if t &&& 0x700 = 0x400 then t &&& 0x703 else t := by
  obtain ⟨row, v, rfl⟩ : ∃ row v, t = txnOf row v := ⟨_, _, (txnOf_extractLsb' t).symm⟩
  rw [txnOf_and_rowMask, txnOf_and_ctrlMask, getLsbD_txnOf]
  obtain rfl | rfl | rfl | rfl | rfl | rfl | rfl | rfl := row_cases row
  · rw [decodeWord_rdCtrl]; rfl
  · rw [decodeWord_rdStatus]; rfl
  · rw [decodeWord_rdResult]; rfl
  · rw [decodeWord_rdRsvd3]; rfl
  · rw [decodeWord_wrCtrl, encode_decodeCtrlOp]; rfl
  · rw [decodeWord_wrStatus]; rfl
  · rw [decodeWord_wrResult]; rfl
  · rw [decodeWord_wrRsvd3]; rfl

/-- The two bytes that carry a word (log entry 1) give it back. -/
theorem decodeBytes_wordBytes (t : Txn) (rest : List Byte) :
    decodeBytes (t.extractLsb' 0 8 :: (0#5 ++ t.extractLsb' 8 3) :: rest) = .ok (decodeWord t, rest) := by
  have hhi : (0#5 ++ t.extractLsb' 8 3 : Byte).toNat < 8 := by
    simp only [BitVec.toNat_append]
    have := (t.extractLsb' 8 3).isLt
    simpa using this
  have hrow : (0#5 ++ t.extractLsb' 8 3 : Byte).extractLsb' 0 3 = t.extractLsb' 8 3 := BitVec.extractLsb'_append_eq_right
  rw [decodeBytes, if_pos hhi, hrow, ← txnOf, txnOf_extractLsb']

/-! ### The opcode table (R58) -/

theorem matchesWord_encode (i : Instr) : Laws.EncodeMatchesRow.Statement i := by
  cases i with
  | wrCtrlNop => exact Laws.EncodeMatchesRow.wrCtrlNop
  | wrCtrlScanOnce => exact Laws.EncodeMatchesRow.wrCtrlScanOnce
  | wrCtrlWaitKeypress => exact Laws.EncodeMatchesRow.wrCtrlWaitKeypress
  | wrCtrlRsvdOp => exact Laws.EncodeMatchesRow.wrCtrlRsvdOp
  | wrStatus v => exact Laws.EncodeMatchesRow.wrStatus v
  | wrResult v => exact Laws.EncodeMatchesRow.wrResult v
  | wrRsvd3 v => exact Laws.EncodeMatchesRow.wrRsvd3 v
  | rdCtrl => exact Laws.EncodeMatchesRow.rdCtrl
  | rdStatus => exact Laws.EncodeMatchesRow.rdStatus
  | rdResult => exact Laws.EncodeMatchesRow.rdResult
  | rdRsvd3 => exact Laws.EncodeMatchesRow.rdRsvd3

/-- Which bits a row of the table looks at: `T[1:0]` only in a CTRL write. -/
theorem opcodeRows_mask : ∀ r ∈ opcodeRows,
    0x703 &&& r.mask = r.mask ∧ (0x700 &&& r.mask = r.mask ∨ r.value.getLsbD 10 = true) := by decide

theorem matchesWord_eq_false_of_read {r : OpcodeRow} {t : Txn} (hr : r.value.getLsbD 10 = true)
    (ht : t.getLsbD 10 = false) : r.matchesWord t = false := by
  rw [OpcodeRow.matchesWord, beq_eq_false_iff_ne]
  intro h
  rw [← h, BitVec.getLsbD_and, ht] at hr
  cases hr

/-- The bits that decoding drops are bits no row of the table looks at. -/
theorem matchesWord_encode_decodeWord {r : OpcodeRow} (hr : r ∈ opcodeRows) (t : Txn) :
    r.matchesWord (encode (decodeWord t)) = r.matchesWord t := by
  obtain ⟨hctrl, hrow⟩ := opcodeRows_mask r hr
  rw [encode_decodeWord]
  split_ifs with hread hop
  · obtain hmask | hwrite := hrow
    · rw [OpcodeRow.matchesWord, BitVec.and_assoc, hmask, ← OpcodeRow.matchesWord]
    · rw [matchesWord_eq_false_of_read hwrite hread,
        matchesWord_eq_false_of_read hwrite (by rw [BitVec.getLsbD_and, hread, Bool.false_and])]
  · rw [OpcodeRow.matchesWord, BitVec.and_assoc, hctrl, ← OpcodeRow.matchesWord]
  · rfl

theorem filter_opcodeRows_mnemonic (i : Instr) :
    (opcodeRows.filter (·.mnemonic == i.mnemonic)).map (·.mnemonic) = [i.mnemonic] := by
  cases i <;> rfl

/-! ### A word as bytes of the table (log entry 1) -/

/-- A number's two low bytes hold its 11 low bits. -/
theorem append_ofNat_bytes (n : Nat) :
    (BitVec.ofNat 8 (n / 2 ^ 8)).extractLsb' 0 3 ++ BitVec.ofNat 8 n = (BitVec.ofNat 11 n : Txn) := by
  apply BitVec.eq_of_toNat_eq
  rw [BitVec.toNat_append, ← Nat.shiftLeft_add_eq_or_of_lt (BitVec.isLt _)]
  simp [Nat.shiftLeft_eq]
  omega

theorem decodeWord_of_decodeTableWord {nbits w : Nat} {i : Instr} (h : decodeTableWord nbits w = some i) :
    decodeWord (BitVec.ofNat 11 (w % 2 ^ nbits)) = i := by
  unfold decodeTableWord tableBytes at h
  generalize w % 2 ^ nbits = bits at h ⊢
  by_cases h16 : bits < 2 ^ 16
  · by_cases h8 : (BitVec.ofNat 8 (bits / 2 ^ 8)).toNat < 8
    · simp only [h16, h8, if_true, decodeBytes, append_ofNat_bytes] at h
      exact Option.some.inj h
    · simp only [h16, h8, if_true, if_false, decodeBytes] at h
      cases h
  · simp only [h16, if_false] at h
    cases h

end Sys2Proof

namespace Sys2Proof.Machine

/-! ### Lines and symbols (R59, R62, R63) -/

theorem getLsbD_activeRows (s2 : Lines) (r : LineIdx) : (activeRows s2).getLsbD r.toNat = !s2.getLsbD r.toNat := by
  simp [activeRows, r.isLt]

theorem digit_code_toNat (d : Fin 10) : (Symbol.digit d).code.toNat = d.val := by
  simp only [Symbol.code, BitVec.toNat_ofNat]
  omega

theorem fn_code_toNat (n : Fin 5) : (Symbol.fn n).code.toNat = 0xB + n.val := by
  simp only [Symbol.code, BitVec.toNat_ofNat]
  omega

theorem code_ofCode (c : SymCode) : (Symbol.ofCode c).code = c := by
  apply BitVec.eq_of_toNat_eq
  unfold Symbol.ofCode
  split_ifs with hdigit hpoint
  · rw [digit_code_toNat]
  · rw [hpoint]; rfl
  · rw [fn_code_toNat]
    show 0xB + (c.toNat - 11) = c.toNat
    omega

theorem ofCode_code (y : Symbol) : Symbol.ofCode y.code = y := by
  cases y with
  | digit d => simp [Symbol.ofCode, digit_code_toNat]
  | point => rfl
  | fn n =>
    have hdigit : ¬ 0xB + n.val < 10 := by omega
    have hpoint : 0xB + n.val ≠ 10 := by omega
    simp [Symbol.ofCode, fn_code_toNat, hdigit, hpoint]

/-- The SYM field of RESULT. -/
theorem resultWord_sym (k : Key) (sym : SymCode) : (resultWord k sym).extractLsb' 0 4 = sym :=
  BitVec.extractLsb'_append_eq_right

/-! ### The host's script over a cycle -/

theorem status_busy (b : Block) : b.status.getLsbD 0 = b.busy := by
  rw [Block.status, BitVec.append_ofBool, BitVec.getLsbD_concat_zero]

theorem scanEnd_fsm_ne_rsvd11 (p : Params) (o : ScanOutcome) (b pre : Block) : (b.scanEnd p o pre).fsm ≠ .rsvd11 := by
  obtain ⟨-, h⟩ | ⟨-, -, -, h⟩ | ⟨-, -, k, sym, -, h⟩ | ⟨-, -, -, h⟩ | ⟨-, -, -, h⟩ := scanEnd_cases p o b pre <;> rw [h]
  case inl => cases o <;> nofun
  all_goals nofun

/-- R14: the FSM's step never makes `fsm` 11. -/
theorem fsmStep_fsm_ne_rsvd11 (p : Params) {b : Block} (pre : Block) (hb : b.fsm ≠ .rsvd11) :
    (b.fsmStep p pre).fsm ≠ .rsvd11 := by
  obtain ⟨-, h⟩ | ⟨-, -, h⟩ | ⟨-, -, h⟩ | ⟨-, h⟩ := fsmStep_cases p b pre <;> rw [h]
  · exact hb
  · nofun
  · exact hb
  · obtain ⟨-, -, h⟩ | ⟨-, -, h⟩ | ⟨r, -, h⟩ := sampleStep_cases p b pre <;> rw [h]
    · nofun
    · exact scanEnd_fsm_ne_rsvd11 _ _ _ _
    · exact scanEnd_fsm_ne_rsvd11 _ _ _ _

theorem step_fsm_ne_rsvd11 {s t : State} (h : step s = .next t) (hf : s.block.fsm ≠ .rsvd11) : t.block.fsm ≠ .rsvd11 := by
  by_cases hreset : s.rstN = false ∨ t.rstN = false
  · rw [step_block_of_reset h hreset]
    nofun
  · obtain ⟨hr, hr'⟩ : s.rstN = true ∧ t.rstN = true := by simpa using hreset
    obtain ⟨-, o, -, hb⟩ | ⟨-, hb⟩ := step_block_cases h hr hr' <;> rw [hb]
    · nofun
    · exact fsmStep_fsm_ne_rsvd11 _ _ hf

/-- A step from a defined `fsm` answers, with reset asserted or not. -/
theorem step_answers {s : State} (hf : s.block.fsm ≠ .rsvd11) : ∃ t, step s = .next t := by
  cases hr : s.rstN
  · exact ⟨_, step_reset hr⟩
  · obtain ⟨u, hu, -⟩ := step_live hr hf
    exact ⟨_, hu⟩

theorem after_succ {s t : State} {n : Nat} {P : State → Prop} (h : step s = .next t) (ht : t.after n P) :
    s.after (n + 1) P := by
  obtain ⟨u, hu, hp⟩ := ht
  exact ⟨u, by rw [runCycles, h]; exact hu, hp⟩

/-- A cycle of `NOBUS` returns nothing, in reset too. -/
theorem step_nobus {s t : State} {n : Nat} {rest : List HostLine} (h : step s = .next t) (hh : s.host = .nobus n :: rest) :
    t.returned = s.returned ∧ t.host = if n ≤ 1 then rest else .nobus (n - 1) :: rest := by
  obtain ⟨-, -, -, -, hhost, -⟩ := step_agents h
  constructor
  · have hsel : s.bus.sel = false := transaction_eq_none.mp (transaction_nobus hh)
    rw [readsReturnTheBusValue.1 s t h, hsel]
    rfl
  · rw [hhost, hh]
    rfl

/-- `NOBUS n` is `n` cycles that return nothing (R65). -/
theorem after_nobus {rest : List HostLine} (n : Nat) : ∀ {s : State}, s.block.fsm ≠ .rsvd11 →
    s.host = .nobus (n + 1) :: rest → s.after (n + 1) fun t => t.host = rest ∧ t.returned = s.returned := by
  induction n with
  | zero =>
    intro s hf hh
    obtain ⟨t, ht⟩ := step_answers hf
    obtain ⟨hret, hhost⟩ := step_nobus ht hh
    exact after_succ ht ⟨t, rfl, hhost, hret⟩
  | succ n ih =>
    intro s hf hh
    obtain ⟨t, ht⟩ := step_answers hf
    obtain ⟨hret, hhost⟩ := step_nobus ht hh
    rw [← hret]
    exact after_succ ht (ih (step_fsm_ne_rsvd11 ht hf) (by simpa using hhost))

/-! ### The statements -/

/-- Settles O4: the decoder and encoder row by row; a word's two bytes give the word back. -/
theorem decodeEncodeRoundTrip : Obligations.DecodeEncodeRoundTrip := by
  refine ⟨fun i _ => ⟨decodeWord_encode i, fun rest => ?_⟩, encode_decodeWord⟩
  have hbytes := decodeBytes_wordBytes (encode i) rest
  rwa [decodeWord_encode] at hbytes

/-- Settles O49: a read of a `POLL` returns STATUS, whose bit 0 is BUSY; `NOBUS n` by induction on `n`. -/
theorem pollRepeatsWhileBusy : Obligations.PollRepeatsWhileBusy := by
  constructor
  · intro s gaps gap rest hr hf hh
    have hrd : s.busRdata = s.block.status := by
      have hb : s.bus = .ofWord (encode .rdStatus) := by rw [State.bus, hh]; rfl
      rw [busRdata_of_read hr (by rw [hb]; rfl) (by rw [hb]; rfl), hb]
      rfl
    refine ⟨_, step_some hr hf (transaction_poll hh) rfl, rfl, ?_⟩
    rw [clockEdge_host, hh, hrd, hostAfter_poll, status_busy]
    simp [Block.busy]
  · intro s n rest hf hn hh
    obtain ⟨m, rfl⟩ := Nat.exists_eq_add_of_le' hn
    exact after_nobus m hf hh

/-- Settles O1: each clause is about literal words. -/
theorem specWordsDecode : Obligations.SpecWordsDecode := by
  unfold Obligations.SpecWordsDecode
  decide

/-- Settles O2: a word matches the rows its canonical word matches, the one row of its mnemonic. -/
theorem everyWordMatchesExactlyOneRow : Obligations.EveryWordMatchesExactlyOneRow := by
  intro t
  have hmatch : ∀ r ∈ opcodeRows, r.matchesWord t = (r.mnemonic == (decodeWord t).mnemonic) := fun r hr => by
    rw [← matchesWord_encode_decodeWord hr, matchesWord_encode _ r hr]
  rw [List.filter_congr hmatch, filter_opcodeRows_mnemonic]

/-- Settles O3: clearing the ignored bits gives the canonical word of the transaction, and every transaction has a next state. -/
theorem ignoredCtrlBitsDoNotDecode : Obligations.IgnoredCtrlBitsDoNotDecode := by
  intro t ht
  have hwe : t.getLsbD 10 = true := by simpa using congrArg (·.getLsbD 10) ht
  have hcanon : encode (decodeWord t) = t &&& 0x703 := by
    rw [encode_decodeWord, if_neg (by rw [hwe]; nofun), if_pos ht]
  exact ⟨by rw [← hcanon, decodeWord_encode], exec_answers _⟩

/-- Settles O5: the drive patterns are literals, and the mask is the sample's complement. -/
theorem lineEncodings : Obligations.LineEncodings := ⟨rfl, rfl, rfl, rfl, rfl, getLsbD_activeRows⟩

/-- Settles O7: `ofCode` splits the codes at 10, where the digits end, and each part has its code as a number. -/
theorem symbolCodes : Obligations.SymbolCodes := ⟨code_ofCode, ofCode_code, digit_code_toNat, rfl, fn_code_toNat⟩

/-- Settles O12: the word on the bus is the one the two bytes of the table row carry. -/
theorem issuedWordIsRun : Obligations.IssuedWordIsRun := by
  intro s nbits w i hf hdec
  have ht : (s.withFetchWord nbits w).transaction = some i := by
    rw [← decodeWord_of_decodeTableWord hdec]
    exact transaction_word rfl
  obtain ⟨u, hu⟩ := exec_answers i (s.withFetchWord nbits w)
  rw [step_some (s := s.withFetchWord nbits w) rfl hf ht hu, hu]
  rfl

/-- Settles O48: SYM is the symbol of the reported key, which the premise makes the same key for both results. -/
theorem symbolTellsTheKeyUnderBijectiveMap : Obligations.SymbolTellsTheKeyUnderBijectiveMap := by
  intro p b b' hbij hb hb' hk hk' hsym
  obtain ⟨k, hres⟩ := hb.key_word hk
  obtain ⟨k', hres'⟩ := hb'.key_word hk'
  rw [hres, hres', resultWord_sym, resultWord_sym] at hsym
  rw [hres, hres', hbij k k' hsym]

end Sys2Proof.Machine

/-! PROOFS. The family 40_scan_phase.md: the invariant, the column lines, the phase and what it samples. -/

namespace Sys2Proof.Machine

/-! ### What a step does to the control registers -/

/-- To show that a step leaves registers with `P`, where `P` looks at neither ERR nor `row_sync`: reset, an acceptance and the
FSM's own step give it. -/
theorem step_establishes {P : Block → Prop} {s t : State} (h : step s = .next t)
    (hframe : ∀ {b : Block} (e : Bool) (r : Lines) (pre : Block), P b → P (({ b with stErr := e } : Block).rowSync r pre))
    (hreset : P Block.reset) (haccept : ∀ o, P (s.block.accept o))
    (hfsm : s.block.fsm ≠ .rsvd11 → P (s.block.fsmStep s.params s.block)) : P t.block := by
  by_cases hrst : s.rstN = false ∨ t.rstN = false
  · rw [step_block_of_reset h hrst]
    exact hreset
  · obtain ⟨hr, hr'⟩ : s.rstN = true ∧ t.rstN = true := by simpa using hrst
    have hf : s.block.fsm ≠ .rsvd11 := fun hf => by simp [step_stuck hr hf] at h
    obtain ⟨-, o, -, hb⟩ | ⟨-, hb⟩ := step_block_cases h hr hr' <;> rw [hb]
    · exact hframe false _ _ (haccept o)
    · exact hframe _ _ _ (hfsm hf)

/-- `b'` belongs to the command that `b` belongs to, which is not complete: `op` and the report are the same, and only the
debounce FSM moves `wph` (R16). -/
structure Block.SameCommand (b b' : Block) : Prop where
  op : b'.op = b.op
  wph : b.op = .scan → b'.wph = b.wph
  report : b.SameReport b'

/-- `b'` is in the first cycle of a phase of the command that `b` belongs to (R69). -/
structure Block.StartsPhase (b b' : Block) : Prop extends b.SameCommand b' where
  fsm : b'.fsm = .settle
  cnt : b'.cnt = 0
  colN : b'.colN = driveColumn b'.colIdx

/-- What a completion leaves in the control registers (R87, R97). -/
structure Block.AtRest (b : Block) : Prop where
  fsm : b.fsm = .idle
  colN : b.colN = noColumn
  colIdx : b.colIdx = 0
  cnt : b.cnt = 0
  wph : b.wph = .press
  stDone : b.stDone = true

/-- `b'` is in the phase that `b` is in: only `fsm`, `cnt`, `row_sync` and ERR may differ (R70). -/
structure Block.SamePhase (b b' : Block) : Prop where
  op : b'.op = b.op
  wph : b'.wph = b.wph
  colIdx : b'.colIdx = b.colIdx
  colN : b'.colN = b.colN
  prow : b'.prow = b.prow
  pcol : b'.pcol = b.pcol
  report : b.SameReport b'

theorem Block.SamePhase.refl (b : Block) : b.SamePhase b := ⟨rfl, rfl, rfl, rfl, rfl, rfl, rfl, rfl, rfl⟩

theorem Block.SamePhase.trans {a b c : Block} (h : a.SamePhase b) (h' : b.SamePhase c) : a.SamePhase c where
  op := h'.op.trans h.op
  wph := h'.wph.trans h.wph
  colIdx := h'.colIdx.trans h.colIdx
  colN := h'.colN.trans h.colN
  prow := h'.prow.trans h.prow
  pcol := h'.pcol.trans h.pcol
  report := ⟨h'.report.stDone.trans h.report.stDone, h'.report.stKey.trans h.report.stKey,
    h'.report.res.trans h.report.res⟩

theorem startsPhase_startPhase (c : LineIdx) (b : Block) : b.StartsPhase (b.startPhase c) :=
  ⟨⟨rfl, fun _ => rfl, sameReport_startPhase c b⟩, rfl, rfl, rfl⟩

theorem startsPhase_latchPress {b : Block} (h : b.op = .wait) (k : Key) : b.StartsPhase (b.latchPress k) :=
  ⟨⟨rfl, by simp [h], sameReport_latchPress k b⟩, rfl, rfl, rfl⟩

theorem atRest_complete (o : ScanOutcome) (b : Block) : (b.complete o).AtRest := by
  cases o <;> exact ⟨rfl, rfl, rfl, rfl, rfl, rfl⟩

theorem atRest_completeWait (p : Params) (b pre : Block) : (b.completeWait p pre).AtRest :=
  ⟨rfl, rfl, rfl, rfl, rfl, rfl⟩

/-- A scan that ends starts the next one, or completes the command (R86). -/
theorem scanEnd_startsPhase_or_atRest (p : Params) (o : ScanOutcome) (b : Block) :
    b.StartsPhase (b.scanEnd p o b) ∨ (b.scanEnd p o b).AtRest := by
  obtain ⟨-, h⟩ | ⟨-, -, -, h⟩ | ⟨hop, -, k, -, -, h⟩ | ⟨-, -, -, h⟩ | ⟨-, -, -, h⟩ := scanEnd_cases p o b b <;> rw [h]
  · exact .inr (atRest_complete o b)
  · exact .inl (startsPhase_startPhase 0 b)
  · exact .inl (startsPhase_latchPress hop k)
  · exact .inl (startsPhase_startPhase 0 b)
  · exact .inr (atRest_completeWait p b b)

/-- The edge that ends a phase starts another one, or completes the command (R85). -/
theorem sampleStep_startsPhase_or_atRest (p : Params) (b : Block) :
    b.StartsPhase (b.sampleStep p b) ∨ (b.sampleStep p b).AtRest := by
  obtain ⟨-, -, h⟩ | ⟨-, -, h⟩ | ⟨r, -, h⟩ := sampleStep_cases p b b <;> rw [h]
  · exact .inl (startsPhase_startPhase _ b)
  · exact scanEnd_startsPhase_or_atRest p _ b
  · exact scanEnd_startsPhase_or_atRest p _ b

/-- The settle step of legal registers counts without a wrap, up to `SETTLE_CYCLES - 1` (R70). -/
theorem fsmStep_settle_cases {p : Params} {b : Block} (hb : b.Legal p) (hf : b.fsm = .settle) :
    (b.cnt + 1 = p.settleCycles ∧ b.fsmStep p b = { b with fsm := .sample })
    ∨ (b.cnt + 1 < p.settleCycles ∧ b.fsmStep p b = { b with cnt := b.cnt + 1 }) := by
  have hlt := hb.cnt_range
  rw [fsmStep_settle hf, Block.settleStep]
  split_ifs with hc
  · exact .inl ⟨by omega, rfl⟩
  · have hlt' : b.cnt + 1 < p.settleCycles := by omega
    exact .inr ⟨hlt', by rw [cnt_succ_mod hlt']⟩

/-! ### The invariant -/

theorem settleCycles_pos {p : Params} (h : p.wellFormed = true) : 0 < p.settleCycles :=
  Nat.zero_lt_of_lt (two_le_settleCycles h)

theorem not_done_of_legal {p : Params} {b : Block} (hb : b.Legal p) (hf : b.fsm ≠ .idle) : b.stDone = false :=
  Bool.eq_false_iff.mpr fun h => hf (hb.done_idle h)

theorem reset_legal {p : Params} (hp : 0 < p.settleCycles) : Block.reset.Legal p :=
  ⟨nofun, rfl, hp, nofun, fun _ => ⟨rfl, rfl, rfl⟩, fun _ => rfl, nofun, nofun⟩

theorem accept_legal {p : Params} (hp : 0 < p.settleCycles) (o : Op) (b : Block) : (b.accept o).Legal p :=
  ⟨nofun, rfl, hp, nofun, nofun, fun _ => rfl, nofun, nofun⟩

theorem atRest_legal {p : Params} {b : Block} (hp : 0 < p.settleCycles) (h : b.AtRest) : b.Legal p where
  fsm_defined := by simp [h.fsm]
  col_drive := by simp [h.fsm, h.colN]
  cnt_range := by simpa [h.cnt] using hp
  sample_cnt := by simp [h.fsm]
  idle_rest := fun _ => ⟨h.colIdx, h.cnt, h.wph⟩
  scan_press := fun _ => h.wph
  done_idle := fun _ => h.fsm
  key_done := fun _ => h.stDone

/-- While a command runs, registers that go on with it are legal where the phase registers are. -/
theorem sameCommand_legal {p : Params} {b b' : Block} (hb : b.Legal p) (hf : b.fsm ≠ .idle) (h : b.SameCommand b')
    (hbusy : b'.fsm = .settle ∨ (b'.fsm = .sample ∧ b'.cnt + 1 = p.settleCycles))
    (hcol : b'.colN = driveColumn b'.colIdx) (hcnt : b'.cnt < p.settleCycles) : b'.Legal p where
  fsm_defined := by obtain hf' | ⟨hf', -⟩ := hbusy <;> simp [hf']
  col_drive := by obtain hf' | ⟨hf', -⟩ := hbusy <;> simpa [hf'] using hcol
  cnt_range := hcnt
  sample_cnt := fun hf' => hbusy.elim (fun hs => by simp [hs] at hf') And.right
  idle_rest := fun hf' => by simp [hf'] at hbusy
  scan_press := fun hop => by
    have hscan : b.op = .scan := h.op ▸ hop
    rw [h.wph hscan, hb.scan_press hscan]
  done_idle := by simp [h.report.stDone, not_done_of_legal hb hf]
  key_done := by simpa only [h.report.stDone, h.report.stKey] using hb.key_done

/-- Each case of the FSM's step keeps the registers legal. -/
theorem fsmStep_legal {p : Params} {b : Block} (hp : 0 < p.settleCycles) (hb : b.Legal p) : (b.fsmStep p b).Legal p := by
  have hdrive : b.fsm ≠ .idle → b.colN = driveColumn b.colIdx := fun hf => by simpa [hf] using hb.col_drive
  cases hf : b.fsm with
  | idle => rwa [fsmStep_idle hf]
  | settle =>
    have hbusy : b.fsm ≠ .idle := by simp [hf]
    obtain ⟨hcnt, h⟩ | ⟨hcnt, h⟩ := fsmStep_settle_cases hb hf <;> rw [h]
    · exact sameCommand_legal hb hbusy ⟨rfl, fun _ => rfl, rfl, rfl, rfl⟩ (.inr ⟨rfl, hcnt⟩) (hdrive hbusy) hb.cnt_range
    · exact sameCommand_legal hb hbusy ⟨rfl, fun _ => rfl, rfl, rfl, rfl⟩ (.inl hf) (hdrive hbusy) hcnt
  | sample =>
    rw [fsmStep_sample hf]
    obtain h | h := sampleStep_startsPhase_or_atRest p b
    · exact sameCommand_legal hb (by simp [hf]) h.toSameCommand (.inl h.fsm) h.colN (by rwa [h.cnt])
    · exact atRest_legal hp h
  | rsvd11 => exact absurd hf hb.fsm_defined

/-- Legality looks at neither ERR nor `row_sync`. -/
theorem legal_rowSync {p : Params} {b : Block} (e : Bool) (r : Lines) (pre : Block) (hb : b.Legal p) :
    (({ b with stErr := e } : Block).rowSync r pre).Legal p :=
  ⟨hb.fsm_defined, hb.col_drive, hb.cnt_range, hb.sample_cnt, hb.idle_rest, hb.scan_press, hb.done_idle, hb.key_done⟩

theorem step_keeps_inv {s t : State} (hs : s.Inv) (h : step s = .next t) : t.Inv := by
  obtain ⟨hparams, -⟩ := step_agents h
  have hp := settleCycles_pos hs.params_ok
  refine ⟨hparams ▸ hs.params_ok, ?_, fun hr => step_block_of_reset h (.inr hr)⟩
  rw [hparams]
  exact step_establishes h legal_rowSync (reset_legal hp)
    (fun o => accept_legal hp o _) fun _ => fsmStep_legal hp hs.legal

/-! ### The column lines -/

/-- R68: no column line is active while idle, column `col_idx` alone otherwise. -/
def Block.DrivesColumn (b : Block) : Prop := b.colN = if b.fsm = .idle then noColumn else driveColumn b.colIdx

/-- Driving column `c` makes its line active, and no other (R63). -/
theorem getLsbD_driveColumn (c c' : LineIdx) : (driveColumn c).getLsbD c'.toNat = decide (c' ≠ c) := by
  revert c c'
  decide

theorem eq_driveColumn_iff {v : Lines} {c : LineIdx} :
    v = driveColumn c ↔ ∀ c' : LineIdx, v.getLsbD c'.toNat = false ↔ c' = c := by
  constructor
  · rintro rfl c'
    simp [getLsbD_driveColumn]
  · intro h
    refine BitVec.eq_of_getLsbD_eq fun i hi => ?_
    have hline := h (BitVec.ofNat 2 i)
    have hdrive := getLsbD_driveColumn c (BitVec.ofNat 2 i)
    rw [BitVec.toNat_ofNat, Nat.mod_eq_of_lt hi] at hline hdrive
    rw [hdrive]
    by_cases hc : BitVec.ofNat 2 i = c
    · simp [hc, hline.mpr hc]
    · simpa [hc] using hline

/-- The column-line invariant line by line. -/
theorem drivesColumn_iff {b : Block} (hf : b.fsm ≠ .rsvd11) :
    b.DrivesColumn ↔ (b.fsm = .idle → b.colN = 0b1111)
      ∧ (b.fsm = .settle ∨ b.fsm = .sample → ∀ c : LineIdx, b.colN.getLsbD c.toNat = false ↔ c = b.colIdx) := by
  rw [Block.DrivesColumn, ← eq_driveColumn_iff]
  cases h : b.fsm with
  | idle => simp [noColumn]
  | settle => simp
  | sample => simp
  | rsvd11 => exact absurd h hf

/-- Every FSM action that moves `fsm` or `col_idx` drives the lines to match (R68). -/
theorem fsmStep_drivesColumn (p : Params) {b : Block} (hb : b.DrivesColumn) : (b.fsmStep p b).DrivesColumn := by
  obtain ⟨-, h⟩ | ⟨hf, -, h⟩ | ⟨-, -, h⟩ | ⟨-, h⟩ := fsmStep_cases p b b <;> rw [h]
  · exact hb
  · simpa [Block.DrivesColumn, hf] using hb
  · exact hb
  · obtain hstart | hrest := sampleStep_startsPhase_or_atRest p b
    · simpa [Block.DrivesColumn, hstart.fsm] using hstart.colN
    · simp [Block.DrivesColumn, hrest.fsm, hrest.colN]

/-! ### The cycles of a phase -/

/-- A live cycle while a command runs: the FSM's step, ERR by a rejection, and the shift of `row_sync` (R108, R124). -/
theorem step_block_busy {s t : State} (h : step s = .next t) (hr : s.rstN = true) (hr' : t.rstN = true)
    (hf : s.block.fsm ≠ .idle) :
    t.block = ({ s.block.fsmStep s.params s.block with
      stErr := s.block.stErr || s.rejectsNow } : Block).rowSync s.rowN s.block := by
  obtain ⟨ha, -⟩ | ⟨-, hb⟩ := step_block_cases h hr hr'
  · exact absurd (acceptsNow_eq_true ha).1 hf
  · exact hb

/-- A live cycle in SETTLE stays in its phase: one more count, or on to the sample (R70). -/
theorem step_settle {s t : State} (hs : s.Inv) (h : step s = .next t) (hr : s.rstN = true) (hr' : t.rstN = true)
    (hf : s.block.fsm = .settle) :
    s.block.SamePhase t.block
    ∧ ((s.block.cnt + 1 = s.params.settleCycles ∧ t.block.fsm = .sample ∧ t.block.cnt = s.block.cnt)
      ∨ (s.block.cnt + 1 < s.params.settleCycles ∧ t.block.fsm = .settle ∧ t.block.cnt = s.block.cnt + 1)) := by
  rw [step_block_busy h hr hr' (by simp [hf])]
  obtain ⟨hcnt, hstep⟩ | ⟨hcnt, hstep⟩ := fsmStep_settle_cases hs.legal hf <;> rw [hstep]
  · exact ⟨⟨rfl, rfl, rfl, rfl, rfl, rfl, rfl, rfl, rfl⟩, .inl ⟨hcnt, rfl, rfl⟩⟩
  · exact ⟨⟨rfl, rfl, rfl, rfl, rfl, rfl, rfl, rfl, rfl⟩, .inr ⟨hcnt, hf, rfl⟩⟩

/-- A live SAMPLE cycle ends its phase: another one starts, or the command is complete (R85). -/
theorem step_sample {s t : State} (h : step s = .next t) (hr : s.rstN = true) (hr' : t.rstN = true)
    (hf : s.block.fsm = .sample) :
    (t.block.fsm = .settle ∧ t.block.cnt = 0) ∨ (t.block.fsm = .idle ∧ t.block.stDone = true) := by
  rw [step_block_busy h hr hr' (by simp [hf]), fsmStep_sample hf]
  exact (sampleStep_startsPhase_or_atRest s.params s.block).imp (fun h => ⟨h.fsm, h.cnt⟩) fun h => ⟨h.fsm, h.stDone⟩

theorem runCycles_succ {n : Nat} {u t : State} (hu : step u = .next t) :
    ∀ {s : State}, runCycles n s = .next u → runCycles (n + 1) s = .next t := by
  induction n with
  | zero =>
    rintro _ ⟨⟩
    rw [runCycles, hu]
    rfl
  | succ n ih =>
    intro s h
    rw [runCycles] at h ⊢
    cases hs : step s with
    | next v => exact ih (by simpa only [hs] using h)
    | fault f => simp [hs] at h
    | refused r => simp [hs] at h

/-- `t` is a cycle of the phase that `s` is in. -/
structure State.InPhase (s t : State) : Prop where
  inv : t.Inv
  noReset : t.noReset
  params : t.params = s.params
  block : s.block.SamePhase t.block

/-- `t` is the cycle of SETTLE with counter `k`, of the phase that `s` is in. -/
structure State.Settling (s : State) (k : Nat) (t : State) : Prop extends s.InPhase t where
  fsm : t.block.fsm = .settle
  cnt : t.block.cnt = k

/-- `t` is the SAMPLE cycle of the phase that `s` is in. -/
structure State.Sampling (s t : State) : Prop extends s.InPhase t where
  fsm : t.block.fsm = .sample

theorem settling_self {s : State} (hs : s.Inv) (hn : s.noReset) (hf : s.block.fsm = .settle) :
    s.Settling s.block.cnt s := ⟨⟨hs, hn, rfl, .refl _⟩, hf, rfl⟩

/-- The cycle after one of SETTLE: in the same phase, the next of SETTLE or the SAMPLE cycle (R70). -/
theorem settling_step {s t : State} {k : Nat} (ht : s.Settling k t) :
    ∃ u, step t = .next u ∧ ((k + 1 = s.params.settleCycles ∧ s.Sampling u)
      ∨ (k + 1 < s.params.settleCycles ∧ s.Settling (k + 1) u)) := by
  obtain ⟨⟨hinv, hn, hparams, hphase⟩, hf, rfl⟩ := ht
  obtain ⟨u, hu⟩ := step_answers hinv.legal.fsm_defined
  have hn' := noReset_step hu hn
  obtain ⟨hsame, hcnt⟩ := step_settle hinv hu hn.1 hn'.1 hf
  have hin : s.InPhase u := ⟨step_keeps_inv hinv hu, hn', (step_agents hu).1.trans hparams, hphase.trans hsame⟩
  rw [hparams] at hcnt
  exact ⟨u, hu, hcnt.imp (fun ⟨hlast, hf', _⟩ => ⟨hlast, hin, hf'⟩) fun ⟨hlt, hf', hc'⟩ => ⟨hlt, ⟨hin, hf', hc'⟩⟩⟩

theorem settling_succ {s t : State} {k : Nat} (ht : s.Settling k t) (hk : k + 1 < s.params.settleCycles) :
    ∃ u, step t = .next u ∧ s.Settling (k + 1) u := by
  obtain ⟨u, hu, ⟨hlast, -⟩ | ⟨-, h⟩⟩ := settling_step ht
  · omega
  · exact ⟨u, hu, h⟩

theorem sampling_of_settling {s t : State} {k : Nat} (ht : s.Settling k t) (hk : k + 1 = s.params.settleCycles) :
    ∃ u, step t = .next u ∧ s.Sampling u := by
  obtain ⟨u, hu, ⟨-, h⟩ | ⟨hlt, -⟩⟩ := settling_step ht
  · exact ⟨u, hu, h⟩
  · omega

/-- From its first cycle on, a phase spends cycle `k < SETTLE_CYCLES` in SETTLE with counter `k` (R69). -/
theorem runCycles_settling {s : State} (hs : s.Inv) (hn : s.noReset) (hf : s.block.fsm = .settle) (hc : s.block.cnt = 0)
    (k : Nat) (hk : k < s.params.settleCycles) : ∃ t, runCycles k s = .next t ∧ s.Settling k t := by
  induction k with
  | zero => exact ⟨s, rfl, hc ▸ settling_self hs hn hf⟩
  | succ k ih =>
    obtain ⟨t, ht, hset⟩ := ih (by omega)
    obtain ⟨u, hu, hset'⟩ := settling_succ hset hk
    exact ⟨u, runCycles_succ hu ht, hset'⟩

/-- Cycle `SETTLE_CYCLES` of a phase is its SAMPLE cycle, and what it samples is the row level of cycle `SETTLE_CYCLES - 2`
(R69, R72): `s1` and `s2` are the two edges between. -/
theorem runCycles_sampling {s : State} (hs : s.Inv) (hn : s.noReset) (hf : s.block.fsm = .settle) (hc : s.block.cnt = 0) :
    ∃ u t, runCycles (s.params.settleCycles - 2) s = .next u ∧ runCycles s.params.settleCycles s = .next t
      ∧ s.Settling (s.params.settleCycles - 2) u ∧ s.Sampling t ∧ t.block.s2 = u.rowN := by
  obtain ⟨m, hm⟩ := Nat.exists_eq_add_of_le' (two_le_settleCycles hs.params_ok)
  obtain ⟨u, hu, hsetU⟩ := runCycles_settling hs hn hf hc m (by omega)
  obtain ⟨v, hv, hsetV⟩ := settling_succ hsetU (by omega)
  obtain ⟨t, ht, hsam⟩ := sampling_of_settling hsetV hm.symm
  have hshift : t.block.s2 = u.rowN := by
    obtain ⟨-, hs2⟩ := synchroniserShiftsAtEveryEdge v t hsetV.noReset.1 ht hsam.noReset.1
    obtain ⟨hs1, -⟩ := synchroniserShiftsAtEveryEdge u v hsetU.noReset.1 hv hsetV.noReset.1
    rw [hs2, hs1]
  rw [hm]
  exact ⟨u, t, hu, runCycles_succ ht (runCycles_succ hv hu), hsetU, hsam, hshift⟩

/-! ### The row lines and the outcome of a phase -/

theorem lowestSet_eq_none_iff (m : Lines) : lowestSet m = none ↔ m = 0 := by
  revert m
  decide

theorem lowestSet_eq_some_iff (m : Lines) (r : LineIdx) :
    lowestSet m = some r ↔ m.getLsbD r.toNat = true ∧ ∀ r' : LineIdx, r' < r → m.getLsbD r'.toNat = false := by
  revert m r
  decide

theorem phaseOutcome_of_none {act : Lines} (h : lowestSet act = none) (p : Params) (c : LineIdx) :
    phaseOutcome p c act = .miss := by rw [phaseOutcome, h]

theorem phaseOutcome_of_some {act : Lines} {r : LineIdx} (h : lowestSet act = some r) (p : Params) (c : LineIdx) :
    phaseOutcome p c act = .hit ⟨r, c⟩ (keySymbol p ⟨r, c⟩) := by rw [phaseOutcome, h]

/-- In the cycle of the capture edge the row lines are IDEAL exactly if the settle constraint holds and the keys have been held
since the phase began (R73, R140). -/
theorem rowsIdeal_capture {s : State} (hf : s.block.fsm = .settle) (hc : s.block.cnt + 2 = s.params.settleCycles) :
    rowsIdeal s = (settleConstraint s.params && decide (s.block.cnt ≤ s.rowsHeld)) := by
  have hdriven : s.params.settleCycles + 1 - syncStages = s.block.cnt + 1 := by rw [syncStages]; omega
  rw [settleConstraint, hdriven, rowsIdeal, hf]

theorem rowN_keypad {s : State} {pressed : Option Key} (h : s.rows = .keypad pressed) :
    s.rowN = if rowsIdeal s then idealRows s.block.colN pressed else Config.freeRow s.cycle := by
  rw [State.rowN, h]

/-- No key pressed: the pull-ups make every row inactive (R20). -/
theorem activeRows_idealRows_none (colN : Lines) : activeRows (idealRows colN none) = 0 := by
  rw [idealRows]
  decide

/-- The pressed key's row is active exactly while its column is driven (R73). -/
theorem activeRows_idealRows_some (c : LineIdx) (k : Key) :
    activeRows (idealRows (driveColumn c) (some k)) = if k.col = c then 1#4 <<< k.row.toNat else 0 := by
  rw [idealRows, getLsbD_driveColumn]
  by_cases h : k.col = c
  · simp [h, activeRows]
  · simp only [h, ne_eq, not_false_eq_true, decide_true, if_true, if_false]
    rfl

/-! ### The statements -/

/-- Settles O40: reset, an acceptance and each case of the FSM's step leave legal registers. -/
theorem stepKeepsTheInvariant : Obligations.StepKeepsTheInvariant := fun _ _ => step_keeps_inv

/-- Settles O41: a step that answers starts where `fsm` is defined, and there the invariant is `DrivesColumn`, which reset, an
acceptance and the FSM's step give. -/
theorem columnLineInvariant : Obligations.ColumnLineInvariant := by
  refine ⟨(drivesColumn_iff (b := Block.reset) nofun).mp rfl, fun s t hs h => ?_⟩
  obtain ⟨hf, hd⟩ : t.block.fsm ≠ .rsvd11 ∧ t.block.DrivesColumn :=
    step_establishes (P := fun b => b.fsm ≠ .rsvd11 ∧ b.DrivesColumn) h (fun _ _ _ hb => hb) ⟨nofun, rfl⟩
      (fun _ => ⟨nofun, rfl⟩)
      fun hf => ⟨fsmStep_fsm_ne_rsvd11 _ _ hf, fsmStep_drivesColumn _ ((drivesColumn_iff hf).mpr hs)⟩
  exact (drivesColumn_iff hf).mp hd

/-- Settles O32: the two cases of the settle step; a counter below `SETTLE_CYCLES` fits in `CNT_W` bits. -/
theorem settleStep : Obligations.SettleStep := by
  intro s hs hr hf
  obtain ⟨t, ht⟩ := step_answers hs.legal.fsm_defined
  refine ⟨t, ht, fun hr' => ?_⟩
  obtain ⟨hsame, hcnt⟩ := step_settle hs ht hr hr' hf
  have hlt : t.block.cnt < s.params.settleCycles := by omega
  refine ⟨hsame.colIdx, hsame.colN, hlt, hlt.trans_le (le_two_pow_cntWidth _), ?_⟩
  split_ifs with hlast
  · obtain ⟨-, h⟩ | ⟨hlt', -⟩ := hcnt
    · exact h
    · omega
  · obtain ⟨hlast', -⟩ | ⟨-, h⟩ := hcnt
    · omega
    · exact h

/-- Settles O50: the SETTLE cycles, the SAMPLE cycle after them, and the edge that ends it. -/
theorem phaseTiming : Obligations.PhaseTiming := by
  intro s hs hn hf hc
  obtain ⟨-, t, -, ht, -, hsam, -⟩ := runCycles_sampling hs hn hf hc
  obtain ⟨u, hu⟩ := step_answers hsam.inv.legal.fsm_defined
  refine ⟨fun k hk => ?_, ⟨t, ht, hsam.fsm, hsam.block.colIdx, hsam.block.colN⟩,
    u, runCycles_succ hu ht, step_sample hu hsam.noReset.1 (noReset_step hu hsam.noReset).1 hsam.fsm⟩
  obtain ⟨v, hv, hset⟩ := runCycles_settling hs hn hf hc k hk
  exact ⟨v, hv, hset.fsm, hset.block.colIdx, hset.block.colN⟩

/-- Settles O51: `s2` is the row level of two cycles earlier. -/
theorem sampleAge : Obligations.SampleAge := by
  intro s hs hn hf hc
  obtain ⟨u, t, hu, ht, -, hsam, hs2⟩ := runCycles_sampling hs hn hf hc
  exact ⟨u, t, hu, ht, hsam.fsm, hs2⟩

/-- Settles O6: what `lowestSet` answers for each of the 16 masks, and the phase outcome by its answer. -/
theorem leastActiveRowIsReported : Obligations.LeastActiveRowIsReported := fun act =>
  ⟨lowestSet_eq_none_iff act, lowestSet_eq_some_iff act, fun p c =>
    ⟨fun h => phaseOutcome_of_none ((lowestSet_eq_none_iff act).mpr h) p c, fun _ h => phaseOutcome_of_some h p c⟩⟩

/-- Settles O52: the captured rows are IDEAL, and the invariant drives column `col_idx` alone. -/
theorem idealKeypadRows : Obligations.IdealKeypadRows := by
  intro s pressed hs hrows hsettle hf hc hheld
  have hcol : s.block.colN = driveColumn s.block.colIdx := by simpa [hf] using hs.legal.col_drive
  have hideal : rowsIdeal s = true := by rw [rowsIdeal_capture hf hc, hsettle, decide_eq_true hheld]; rfl
  rw [rowN_keypad hrows, if_pos hideal, hcol]
  cases pressed with
  | none => exact activeRows_idealRows_none _
  | some k => exact activeRows_idealRows_some _ k

/-- Settles O53: without the settle constraint the captured rows are not IDEAL. -/
theorem settleViolationLeavesTheSampleFree : Obligations.SettleViolationLeavesTheSampleFree := by
  intro s pressed hrows hsettle hf hc
  have hideal : rowsIdeal s = false := by rw [rowsIdeal_capture hf hc, hsettle, Bool.false_and]
  rw [rowN_keypad hrows, hideal]
  rfl

end Sys2Proof.Machine

/-! PROOFS. The family 41_scan_once.md: the edge that ends a phase, the scan column by column, and the `SCAN_ONCE` command. -/

namespace Sys2Proof.Machine

/-! ### Lines and words -/

/-- RESULT of a key as a number (R62). -/
theorem resultWord_toNat (k : Key) (sym : SymCode) :
    (resultWord k sym).toNat = 64 * k.col.toNat + 16 * k.row.toNat + sym.toNat := by
  have hcol := k.col.isLt
  have hrow := k.row.isLt
  have hsym := sym.isLt
  rw [resultWord, BitVec.toNat_append, BitVec.toNat_append, ← Nat.shiftLeft_add_eq_or_of_lt hrow,
    ← Nat.shiftLeft_add_eq_or_of_lt hsym]
  simp only [Nat.shiftLeft_eq]
  omega

/-- A row alone active is the least one. -/
theorem lowestSet_shiftLeft (r : LineIdx) : lowestSet (1#4 <<< r.toNat) = some r := by
  revert r
  decide

theorem exists_lowestSet_or_eq_zero (m : Lines) : (∃ r, lowestSet m = some r) ∨ m = 0 := by
  cases h : lowestSet m with
  | some r => exact .inl ⟨r, rfl⟩
  | none => exact .inr ((lowestSet_eq_none_iff m).mp h)

theorem phaseOutcome_of_zero {act : Lines} (h : act = 0) (p : Params) (c : LineIdx) : phaseOutcome p c act = .miss :=
  phaseOutcome_of_none ((lowestSet_eq_none_iff act).mpr h) p c

/-- R85: the next column's index does not wrap before column 3. -/
theorem lineIdx_succ_toNat {c : LineIdx} (h : c.toNat < 3) : (c + 1).toNat = c.toNat + 1 := by
  rw [BitVec.toNat_add, Nat.mod_eq_of_lt]
  · rfl
  · show c.toNat + 1 < 4
    omega

/-! ### The edge that ends a phase -/

theorem sampleStep_of_miss {p : Params} {b pre : Block} (ha : activeRows pre.s2 = 0) (hc : pre.colIdx ≠ 3) :
    b.sampleStep p pre = b.startPhase (pre.colIdx + 1) := by
  rw [Block.sampleStep, phaseOutcome_of_zero ha]
  exact if_neg hc

theorem sampleStep_of_last_miss {p : Params} {b pre : Block} (ha : activeRows pre.s2 = 0) (hc : pre.colIdx = 3) :
    b.sampleStep p pre = b.scanEnd p .noKey pre := by
  rw [Block.sampleStep, phaseOutcome_of_zero ha]
  exact if_pos hc

theorem sampleStep_of_hit {p : Params} {b pre : Block} {r : LineIdx} (hr : lowestSet (activeRows pre.s2) = some r) :
    b.sampleStep p pre = b.scanEnd p (.hit ⟨r, pre.colIdx⟩ (keySymbol p ⟨r, pre.colIdx⟩)) pre := by
  rw [Block.sampleStep, phaseOutcome_of_some hr]

theorem scanEnd_of_scan {p : Params} {b pre : Block} (h : pre.op = .scan) (o : ScanOutcome) :
    b.scanEnd p o pre = b.complete o := by simp [Block.scanEnd, h]

/-- To show what a live SAMPLE cycle gives, show it of the phase-end step, with ERR set by a rejection and `row_sync` shifted
(R85, R124). -/
theorem cycleGives_of_sampleStep {s : State} {P : Block → Prop} (hr : s.rstN = true) (hf : s.block.fsm = .sample)
    (h : P (({ s.block.sampleStep s.params s.block with
      stErr := s.block.stErr || s.rejectsNow } : Block).rowSync s.rowN s.block)) : s.cycleGives P := by
  obtain ⟨t, ht⟩ := step_answers (s := s) (by simp [hf])
  refine ⟨t, ht, fun hr' => ?_⟩
  rw [step_block_busy ht hr hr' (by simp [hf]), fsmStep_sample hf]
  exact h

/-! ### The statements about one edge -/

/-- Settles O33: the phase-end step is `StartPhase` of the next column, whose index does not wrap. -/
theorem missMovesToTheNextColumn : Obligations.MissMovesToTheNextColumn := by
  intro s hr hf ha hc
  apply cycleGives_of_sampleStep hr hf
  rw [sampleStep_of_miss ha fun h => by simp [h] at hc]
  refine ⟨rfl, lineIdx_succ_toNat hc, rfl, ?_, rfl, rfl, rfl, rfl, rfl, rfl, rfl, rfl⟩
  rw [← lineIdx_succ_toNat hc]
  rfl

/-- Settles O34: with `op = OP_SCAN` the phase-end step is `Complete`, without a key in column 3 and with one in any column. -/
theorem scanOnceCompletes : Obligations.ScanOnceCompletes := by
  intro s hr hf hop
  refine ⟨fun ha hc => cycleGives_of_sampleStep hr hf ?_, fun r hlow => cycleGives_of_sampleStep hr hf ?_⟩
  · rw [sampleStep_of_last_miss ha hc, scanEnd_of_scan hop]
    exact ⟨rfl, rfl, rfl, rfl, rfl, rfl, rfl, rfl, rfl, rfl, rfl, rfl⟩
  · rw [sampleStep_of_hit hlow, scanEnd_of_scan hop]
    exact ⟨rfl, rfl, rfl, rfl, rfl, rfl, rfl, resultWord_toNat _ _, rfl, rfl, rfl, rfl⟩

/-! ### Runs of cycles -/

theorem runCycles_succ_cases {n : Nat} {s u : State} (h : runCycles (n + 1) s = .next u) :
    ∃ t, step s = .next t ∧ runCycles n t = .next u := by
  rw [runCycles] at h
  cases hs : step s with
  | next t => exact ⟨t, rfl, by simpa only [hs] using h⟩
  | fault f => simp [hs] at h
  | refused r => simp [hs] at h

theorem runCycles_add {m n : Nat} {t u : State} (hu : runCycles n t = .next u) {s : State}
    (ht : runCycles m s = .next t) : runCycles (m + n) s = .next u := by
  induction m generalizing s with
  | zero =>
    cases ht
    rwa [Nat.zero_add]
  | succ m ih =>
    obtain ⟨v, hv, hrest⟩ := runCycles_succ_cases ht
    rw [Nat.succ_add, runCycles, hv]
    exact ih hrest

theorem after_of_step {s t : State} {n : Nat} {P : State → Prop} (h : step s = .next t) (ht : t.after n P) :
    s.after (1 + n) P := by
  rw [Nat.add_comm]
  exact after_succ h ht

/-- A cycle that no reset follows leaves what the cycle gives. -/
theorem step_of_cycleGives {s : State} {P : Block → Prop} (hn : s.noReset) (h : s.cycleGives P) :
    ∃ t, step s = .next t ∧ t.noReset ∧ P t.block := by
  obtain ⟨t, ht, hP⟩ := h
  have hn' := noReset_step ht hn
  exact ⟨t, ht, hn', hP hn'.1⟩

theorem noReset_of_steady {s : State} (h : s.steady) : s.noReset := ⟨h.1, fun e he => by rw [h.2 e he]⟩

theorem steady_step {s t : State} (h : step s = .next t) (hs : s.steady) :
    t.steady ∧ t.rows = s.rows ∧ t.rowsHeld = s.rowsHeld + 1 := by
  obtain ⟨hnow, hcoming⟩ := env_step (P := (· = ⟨true, s.rows⟩)) h (by rw [hs.1]) hs.2
  obtain ⟨hrst, hrows⟩ := EnvCycle.mk.inj hnow
  obtain ⟨-, -, hnext, -, -, -, hheld⟩ := step_agents h
  exact ⟨⟨hrst, fun e he => by rw [hrows, hcoming e he]⟩, hrows, by rw [hheld, ← hnext, hrows, if_pos rfl]⟩

/-- A steady row source counts every cycle as held (log entry 10). -/
theorem steady_runCycles {n : Nat} {s t : State} (h : runCycles n s = .next t) (hs : s.steady) :
    t.steady ∧ t.rows = s.rows ∧ t.rowsHeld = s.rowsHeld + n := by
  induction n generalizing s with
  | zero =>
    cases h
    exact ⟨hs, rfl, rfl⟩
  | succ n ih =>
    obtain ⟨u, hu, hrest⟩ := runCycles_succ_cases h
    obtain ⟨hsu, hrows, hheld⟩ := steady_step hu hs
    obtain ⟨hst, hrows', hheld'⟩ := ih hrest hsu
    exact ⟨hst, hrows'.trans hrows, by omega⟩

/-! ### The phases of a scan -/

/-- `b'` belongs to the scan that `b` belongs to: no edge within a scan writes these registers (R84, R85). -/
structure Block.SameScan (b b' : Block) : Prop where
  op : b'.op = b.op
  wph : b'.wph = b.wph
  prow : b'.prow = b.prow
  pcol : b'.pcol = b.pcol
  report : b.SameReport b'

theorem Block.SameScan.refl (b : Block) : b.SameScan b := ⟨rfl, rfl, rfl, rfl, rfl, rfl, rfl⟩

theorem Block.SameScan.trans {a b c : Block} (h : a.SameScan b) (h' : b.SameScan c) : a.SameScan c where
  op := h'.op.trans h.op
  wph := h'.wph.trans h.wph
  prow := h'.prow.trans h.prow
  pcol := h'.pcol.trans h.pcol
  report := ⟨h'.report.stDone.trans h.report.stDone, h'.report.stKey.trans h.report.stKey,
    h'.report.res.trans h.report.res⟩

theorem Block.SamePhase.sameScan {b b' : Block} (h : b.SamePhase b') : b.SameScan b' :=
  ⟨h.op, h.wph, h.prow, h.pcol, h.report⟩

/-- `s` is the first cycle of a scan (R84). -/
structure State.StartsScan (s : State) : Prop where
  inv : s.Inv
  noReset : s.noReset
  fsm : s.block.fsm = .settle
  cnt : s.block.cnt = 0
  colIdx : s.block.colIdx = 0

/-- `t` is a cycle of the phase of column `j`, in the scan that `s` starts. -/
structure State.InScanPhase (s : State) (j : Nat) (t : State) : Prop where
  inv : t.Inv
  noReset : t.noReset
  params : t.params = s.params
  scan : s.block.SameScan t.block
  colIdx : t.block.colIdx.toNat = j

/-- `t` is the first cycle of the phase of column `j`, in the scan that `s` starts. -/
structure State.ScanPhaseStart (s : State) (j : Nat) (t : State) : Prop extends s.InScanPhase j t where
  fsm : t.block.fsm = .settle
  cnt : t.block.cnt = 0

theorem scanPhaseStart_self {s : State} (hs : s.StartsScan) : s.ScanPhaseStart 0 s :=
  ⟨⟨hs.inv, hs.noReset, rfl, .refl _, by rw [hs.colIdx]; rfl⟩, hs.fsm, hs.cnt⟩

theorem inScanPhase_of_inPhase {s t u : State} {j : Nat} (ht : s.InScanPhase j t) (hu : t.InPhase u) :
    s.InScanPhase j u where
  inv := hu.inv
  noReset := hu.noReset
  params := hu.params.trans ht.params
  scan := ht.scan.trans hu.block.sameScan
  colIdx := by rw [hu.block.colIdx, ht.colIdx]

theorem not_done_of_inScanPhase {s t : State} {j : Nat} (ht : s.InScanPhase j t) (hf : t.block.fsm ≠ .idle) :
    t.block.stDone = false := not_done_of_legal ht.inv.legal hf

/-- Through its phase column `j` is driven (R63, R68). -/
theorem colN_of_inScanPhase {s t : State} {j : Nat} (ht : s.InScanPhase j t) (hf : t.block.fsm ≠ .idle) :
    t.block.colN = ~~~(1#4 <<< j) := by
  rw [ht.inv.legal.col_drive, if_neg hf, driveColumn, ht.colIdx]

/-- The cycles of a phase: `SETTLE_CYCLES` of SETTLE and then the SAMPLE cycle (R69). -/
theorem runCycles_inScanPhase {s t : State} {j i : Nat} (ht : s.ScanPhaseStart j t) (hi : i ≤ s.params.settleCycles) :
    ∃ u, runCycles i t = .next u ∧ s.InScanPhase j u
      ∧ u.block.fsm = if i = s.params.settleCycles then .sample else .settle := by
  rw [← ht.params] at hi ⊢
  obtain rfl | hlt := hi.eq_or_lt
  · obtain ⟨-, u, -, hu, -, hsam, -⟩ := runCycles_sampling ht.inv ht.noReset ht.fsm ht.cnt
    exact ⟨u, hu, inScanPhase_of_inPhase ht.toInScanPhase hsam.toInPhase, by rw [if_pos rfl, hsam.fsm]⟩
  · obtain ⟨u, hu, hset⟩ := runCycles_settling ht.inv ht.noReset ht.fsm ht.cnt i hlt
    exact ⟨u, hu, inScanPhase_of_inPhase ht.toInScanPhase hset.toInPhase, by rw [if_neg hlt.ne, hset.fsm]⟩

/-- The edge that ends a phase without a key, before column 3, starts the next one (R85). -/
theorem scanPhaseStart_of_miss {s t : State} {j : Nat} (ht : s.InScanPhase j t) (hf : t.block.fsm = .sample)
    (ha : activeRows t.block.s2 = 0) (hj : j < 3) : ∃ u, step t = .next u ∧ s.ScanPhaseStart (j + 1) u := by
  have hcol := ht.colIdx
  obtain ⟨u, hu, hn, hfsm, hidx, hcnt, -, hop, hwph, hprow, hpcol, hdone, hkey, hres, -⟩ :=
    step_of_cycleGives ht.noReset (missMovesToTheNextColumn t ht.noReset.1 hf ha (by omega))
  have hsame : t.block.SameScan u.block := ⟨hop, hwph, hprow, hpcol, hdone, hkey, hres⟩
  exact ⟨u, hu, ⟨step_keeps_inv ht.inv hu, hn, (step_agents hu).1.trans ht.params, ht.scan.trans hsame, by omega⟩,
    hfsm, hcnt⟩

/-! ### The samples of a scan -/

/-- What the phase of column `j` samples in the scan that `s` starts, if the scan comes to that phase. -/
def State.scanSample (s : State) (j : Nat) : Lines :=
  match runCycles (j * (s.params.settleCycles + 1) + s.params.settleCycles) s with
  | .next t => activeRows t.block.s2
  | .fault _ => 0
  | .refused _ => 0

theorem scanSample_eq {s t : State} {j : Nat}
    (h : runCycles (j * (s.params.settleCycles + 1) + s.params.settleCycles) s = .next t) :
    s.scanSample j = activeRows t.block.s2 := by
  rw [State.scanSample, h]

/-- A scan comes to column `j` after `j` phases if they all miss (R82). -/
theorem runCycles_scanPhaseStart {s : State} (hs : s.StartsScan) {j : Nat} (hj : j < 4)
    (hmiss : ∀ i < j, s.scanSample i = 0) :
    ∃ t, runCycles (j * (s.params.settleCycles + 1)) s = .next t ∧ s.ScanPhaseStart j t := by
  induction j with
  | zero => exact ⟨s, by rw [Nat.zero_mul]; rfl, scanPhaseStart_self hs⟩
  | succ j ih =>
    obtain ⟨t, ht, hstart⟩ := ih (by omega) fun i hi => hmiss i (by omega)
    obtain ⟨u, hu, hphase, hf⟩ := runCycles_inScanPhase hstart le_rfl
    rw [if_pos rfl] at hf
    have hrun := runCycles_add hu ht
    have ha : activeRows u.block.s2 = 0 := by rw [← scanSample_eq hrun, hmiss j (by omega)]
    obtain ⟨v, hv, hnext⟩ := scanPhaseStart_of_miss hphase hf ha (by omega)
    exact ⟨v, by rw [Nat.succ_mul]; exact runCycles_succ hv hrun, hnext⟩

/-- Every cycle of a phase that a scan comes to. -/
theorem runCycles_scanPhase {s : State} (hs : s.StartsScan) {j i : Nat} (hj : j < 4)
    (hmiss : ∀ i < j, s.scanSample i = 0) (hi : i ≤ s.params.settleCycles) :
    ∃ t, runCycles (j * (s.params.settleCycles + 1) + i) s = .next t ∧ s.InScanPhase j t
      ∧ t.block.fsm = if i = s.params.settleCycles then .sample else .settle := by
  obtain ⟨t, ht, hstart⟩ := runCycles_scanPhaseStart hs hj hmiss
  obtain ⟨u, hu, hphase⟩ := runCycles_inScanPhase hstart hi
  exact ⟨u, runCycles_add hu ht, hphase⟩

/-- The SAMPLE cycle of a phase that a scan comes to. -/
theorem runCycles_scanSample {s : State} (hs : s.StartsScan) {j : Nat} (hj : j < 4)
    (hmiss : ∀ i < j, s.scanSample i = 0) :
    ∃ t, runCycles (j * (s.params.settleCycles + 1) + s.params.settleCycles) s = .next t ∧ s.InScanPhase j t
      ∧ t.block.fsm = .sample ∧ activeRows t.block.s2 = s.scanSample j := by
  obtain ⟨t, ht, hphase, hf⟩ := runCycles_scanPhase hs hj hmiss le_rfl
  exact ⟨t, ht, hphase, by rw [hf, if_pos rfl], (scanSample_eq ht).symm⟩

/-! ### The completion of a `scan_once` -/

/-- A `scan_once` with a key in column `c` completes at the end of that column's phase, with the key of the least active row
(R87, R88). -/
theorem scanOnce_after_hit {s : State} (hs : s.StartsScan) (hop : s.block.op = .scan) {c r : LineIdx}
    (hmiss : ∀ i < c.toNat, s.scanSample i = 0) (hhit : lowestSet (s.scanSample c.toNat) = some r) :
    s.after ((c.toNat + 1) * (s.params.settleCycles + 1)) fun t =>
      t.block.fsm = .idle ∧ t.block.colN = 0b1111 ∧ t.block.stDone = true ∧ t.block.stKey = true
      ∧ t.block.res = resultWord ⟨r, c⟩ (keySymbol s.params ⟨r, c⟩) := by
  obtain ⟨t, ht, hphase, hf, ha⟩ := runCycles_scanSample hs c.isLt hmiss
  have hcol : t.block.colIdx = c := BitVec.eq_of_toNat_eq hphase.colIdx
  obtain ⟨u, hu, -, hidle, hcolN, -, -, -, hdone, hkey, hres, -⟩ := step_of_cycleGives hphase.noReset
    ((scanOnceCompletes t hphase.noReset.1 hf (hphase.scan.op.trans hop)).2 r (by rw [ha, hhit]))
  refine ⟨u, by rw [Nat.succ_mul]; exact runCycles_succ hu ht, hidle, hcolN, hdone, hkey, BitVec.eq_of_toNat_eq ?_⟩
  rw [hres, hcol, hphase.params, resultWord_toNat]

/-- A `scan_once` whose four phases miss completes at the end of the last one, with no key (R87, R88). -/
theorem scanOnce_after_misses {s : State} (hs : s.StartsScan) (hop : s.block.op = .scan)
    (hmiss : ∀ i < 4, s.scanSample i = 0) :
    s.after (4 * (s.params.settleCycles + 1)) fun t =>
      t.block.fsm = .idle ∧ t.block.stDone = true ∧ t.block.stKey = false ∧ t.block.res = 0x00 := by
  obtain ⟨t, ht, hphase, hf, ha⟩ := runCycles_scanSample hs (j := 3) (by omega) fun i hi => hmiss i (by omega)
  have hcol : t.block.colIdx = 3 := BitVec.eq_of_toNat_eq hphase.colIdx
  obtain ⟨u, hu, -, hidle, -, -, -, -, hdone, hkey, hres, -⟩ := step_of_cycleGives hphase.noReset
    ((scanOnceCompletes t hphase.noReset.1 hf (hphase.scan.op.trans hop)).1 (by rw [ha, hmiss 3 (by omega)]) hcol)
  exact ⟨u, by rw [Nat.succ_mul]; exact runCycles_succ hu ht, hidle, hdone, hkey, hres⟩

/-! ### The scan result (R83) -/

/-- The scan result is the first hit in column order, or no key where all four samples are empty. -/
theorem scanResult_cases (p : Params) (a : Nat → Lines) :
    (∃ c r : LineIdx, (∀ i < c.toNat, a i = 0) ∧ lowestSet (a c.toNat) = some r
      ∧ scanResult p (a 0) (a 1) (a 2) (a 3) = .hit ⟨r, c⟩ (keySymbol p ⟨r, c⟩))
    ∨ ((∀ i < 4, a i = 0) ∧ scanResult p (a 0) (a 1) (a 2) (a 3) = .noKey) := by
  obtain ⟨r, h0⟩ | h0 := exists_lowestSet_or_eq_zero (a 0)
  · exact .inl ⟨0, r, nofun, h0, by rw [scanResult, phaseOutcome_of_some h0]⟩
  have m1 : ∀ i < 1, a i = 0 := Nat.forall_lt_succ_right.mpr ⟨nofun, h0⟩
  obtain ⟨r, h1⟩ | h1 := exists_lowestSet_or_eq_zero (a 1)
  · exact .inl ⟨1, r, m1, h1, by rw [scanResult, phaseOutcome_of_zero h0, phaseOutcome_of_some h1]⟩
  have m2 : ∀ i < 2, a i = 0 := Nat.forall_lt_succ_right.mpr ⟨m1, h1⟩
  obtain ⟨r, h2⟩ | h2 := exists_lowestSet_or_eq_zero (a 2)
  · exact .inl ⟨2, r, m2, h2, by
      rw [scanResult, phaseOutcome_of_zero h0, phaseOutcome_of_zero h1, phaseOutcome_of_some h2]⟩
  have m3 : ∀ i < 3, a i = 0 := Nat.forall_lt_succ_right.mpr ⟨m2, h2⟩
  obtain ⟨r, h3⟩ | h3 := exists_lowestSet_or_eq_zero (a 3)
  · exact .inl ⟨3, r, m3, h3, by
      rw [scanResult, phaseOutcome_of_zero h0, phaseOutcome_of_zero h1, phaseOutcome_of_zero h2,
        phaseOutcome_of_some h3]⟩
  exact .inr ⟨Nat.forall_lt_succ_right.mpr ⟨m3, h3⟩, by
    rw [scanResult, phaseOutcome_of_zero h0, phaseOutcome_of_zero h1, phaseOutcome_of_zero h2, phaseOutcome_of_zero h3]⟩

/-- A phase that the scan runs is one of the four, and follows misses alone (R82). -/
theorem misses_of_lt_scanPhases {p : Params} {a : Nat → Lines} {j : Nat}
    (hj : j < scanPhases (scanResult p (a 0) (a 1) (a 2) (a 3))) : j < 4 ∧ ∀ i < j, a i = 0 := by
  obtain ⟨c, r, hmiss, -, hout⟩ | ⟨hmiss, hout⟩ := scanResult_cases p a <;> rw [hout] at hj
  · replace hj : j < c.toNat + 1 := hj
    exact ⟨by omega, fun i hi => hmiss i (by omega)⟩
  · exact ⟨hj, fun i hi => hmiss i (hi.trans hj)⟩

/-! ### The keypad -/

/-- What the phase of column `j` samples under IDEAL (R73): the pressed key's row in its own column. -/
def keypadSample : Option Key → Nat → Lines
  | none, _ => 0
  | some k, j => if j = k.col.toNat then 1#4 <<< k.row.toNat else 0

/-- `s` is the first cycle of a scan on a board that meets the settle constraint, with no key or one key held clean from now
on. -/
structure State.StartsKeypadScan (pressed : Option Key) (s : State) : Prop extends s.StartsScan where
  steady : s.steady
  rows : s.rows = .keypad pressed
  settle : settleConstraint s.params = true

/-- A phase samples what the keypad gives under IDEAL (R72, R73): the keys have been held since it began, the capture is in its
cycle `SETTLE_CYCLES - 2`. -/
theorem activeRows_of_keypad {s t : State} {pressed : Option Key} {j : Nat} (ht : s.ScanPhaseStart j t)
    (hsteady : t.steady) (hrows : t.rows = .keypad pressed) (hsettle : settleConstraint s.params = true) :
    ∃ u, runCycles s.params.settleCycles t = .next u ∧ activeRows u.block.s2 = keypadSample pressed j := by
  obtain ⟨v, u, hv, hu, hset, -, hs2⟩ := runCycles_sampling ht.inv ht.noReset ht.fsm ht.cnt
  obtain ⟨-, hrowsV, hheld⟩ := steady_runCycles hv hsteady
  have hS := two_le_settleCycles ht.inv.params_ok
  have hideal := idealKeypadRows v pressed hset.inv (hrowsV.trans hrows) (by rw [hset.params, ht.params, hsettle])
    hset.fsm (by rw [hset.cnt, hset.params]; omega) (by rw [hset.cnt]; omega)
  refine ⟨u, ht.params ▸ hu, ?_⟩
  rw [hs2, hideal]
  cases pressed with
  | none => rfl
  | some k =>
    have hcol : k.col = v.block.colIdx ↔ j = k.col.toNat := by
      rw [hset.block.colIdx, ← BitVec.toNat_inj, ht.colIdx, eq_comm]
    exact if_congr hcol rfl rfl

/-- The samples of a scan on a keypad, up to the first with an active row. -/
theorem scanSample_keypad {s : State} {pressed : Option Key} (hs : s.StartsKeypadScan pressed) {j : Nat} (hj : j < 4)
    (hmiss : ∀ i < j, keypadSample pressed i = 0) : s.scanSample j = keypadSample pressed j := by
  induction j using Nat.strong_induction_on with
  | _ j ih =>
    obtain ⟨t, ht, hstart⟩ := runCycles_scanPhaseStart hs.toStartsScan hj fun i hi => by
      rw [ih i hi (by omega) fun k hk => hmiss k (by omega), hmiss i hi]
    obtain ⟨hsteady, hrows, -⟩ := steady_runCycles ht hs.steady
    obtain ⟨u, hu, ha⟩ := activeRows_of_keypad hstart hsteady (hrows.trans hs.rows) hs.settle
    rw [scanSample_eq (runCycles_add hu ht), ha]

theorem keypadSample_of_lt {k : Key} {i : Nat} (h : i < k.col.toNat) : keypadSample (some k) i = 0 := if_neg h.ne

theorem keypadSample_col (k : Key) : keypadSample (some k) k.col.toNat = 1#4 <<< k.row.toNat := if_pos rfl

/-! ### The start of a scan -/

/-- An accepted command starts a scan (R84, R110). -/
theorem startsScan_of_accept {s : State} {o : Op} (hs : s.Inv) (hn : s.noReset) (hf : s.block.fsm = .idle)
    (ho : s.startsNow = some o) :
    ∃ t, step s = .next t ∧ t.StartsScan ∧ t.params = s.params
      ∧ t.block = (s.block.accept o).rowSync s.rowN s.block := by
  obtain ⟨t, ht⟩ := step_answers hs.legal.fsm_defined
  have hn' := noReset_step ht hn
  have haccept : s.acceptsNow = true := by simp [State.acceptsNow, ho, Block.busy, hf]
  obtain ⟨-, o', ho', hb⟩ | ⟨hreject, -⟩ := step_block_cases ht hn.1 hn'.1
  · obtain rfl : o' = o := Option.some.inj (ho'.symm.trans ho)
    have hstart : t.StartsScan := ⟨step_keeps_inv hs ht, hn', by rw [hb]; rfl, by rw [hb]; rfl, by rw [hb]; rfl⟩
    exact ⟨t, ht, hstart, (step_agents ht).1, hb⟩
  · simp [haccept] at hreject

theorem startsKeypadScan_of_accept {s : State} {o : Op} {pressed : Option Key} (hs : s.Inv) (hsteady : s.steady)
    (hrows : s.rows = .keypad pressed) (hsettle : settleConstraint s.params = true) (hf : s.block.fsm = .idle)
    (ho : s.startsNow = some o) :
    ∃ t, step s = .next t ∧ t.StartsKeypadScan pressed ∧ t.params = s.params
      ∧ t.block = (s.block.accept o).rowSync s.rowN s.block := by
  obtain ⟨t, ht, hstart, hparams, hb⟩ := startsScan_of_accept hs (noReset_of_steady hsteady) hf ho
  obtain ⟨hsteady', hrows', -⟩ := steady_step ht hsteady
  exact ⟨t, ht, ⟨hstart, hsteady', hrows'.trans hrows, hparams ▸ hsettle⟩, hparams, hb⟩

theorem startsNow_scanOnce {s : State} (h : s.transaction = some .wrCtrlScanOnce) : s.startsNow = some .scan := by
  rw [State.startsNow, h]

/-- The SAMPLE cycle of a phase, counted from the cycle before the scan starts. -/
theorem after_scanSample {s t : State} (ht : step s = .next t) (hs : t.StartsScan) {j : Nat} (hj : j < 4)
    (hmiss : ∀ i < j, t.scanSample i = 0) :
    s.after (1 + j * (t.params.settleCycles + 1) + t.params.settleCycles) fun u =>
      u.block.fsm = .sample ∧ u.block.colIdx.toNat = j ∧ activeRows u.block.s2 = t.scanSample j
      ∧ u.block.stDone = false := by
  obtain ⟨u, hu, hphase, hfsm, ha⟩ := runCycles_scanSample hs hj hmiss
  rw [Nat.add_assoc]
  exact after_of_step ht ⟨u, hu, hfsm, hphase.colIdx, ha, not_done_of_inScanPhase hphase (by simp [hfsm])⟩

theorem getElem?_firstFour (a : Nat → Lines) {j : Nat} (hj : j < 4) : [a 0, a 1, a 2, a 3][j]? = some (a j) := by
  interval_cases j <;> rfl

/-! ### The statements about whole commands -/

/-- Settles O54: the samples are those of the scan that the command starts; every phase before the last one missed, which brings
the scan to it. -/
theorem scanOnceReportsTheFirstHit : Obligations.ScanOnceReportsTheFirstHit := by
  intro s hs hn hf htr
  obtain ⟨t, ht, hstart, hparams, hb⟩ := startsScan_of_accept hs hn hf (startsNow_scanOnce htr)
  have hop : t.block.op = .scan := by rw [hb]; rfl
  refine ⟨t.scanSample 0, t.scanSample 1, t.scanSample 2, t.scanSample 3, ?_⟩
  rw [← hparams]
  constructor
  · intro j hj
    obtain ⟨hj4, hmiss⟩ := misses_of_lt_scanPhases hj
    rw [getElem?_firstFour _ hj4]
    simpa only [Option.some.injEq] using after_scanSample ht hstart hj4 hmiss
  · obtain ⟨c, r, hmiss, hhit, hout⟩ | ⟨hmiss, hout⟩ := scanResult_cases t.params t.scanSample <;> rw [hout]
    · obtain ⟨u, hu, hidle, -, hdone, hreport⟩ := scanOnce_after_hit hstart hop hmiss hhit
      exact after_of_step ht ⟨u, hu, hidle, hdone, hreport⟩
    · exact after_of_step ht (scanOnce_after_misses hstart hop hmiss)

/-- Settles O55: the samples are the keypad's, which miss before column `c` and have row `r` alone active there. -/
theorem scanOnceFindsTheHeldKey : Obligations.ScanOnceFindsTheHeldKey := by
  intro s k hs hsteady hrows hsettle hf htr
  obtain ⟨t, ht, hstart, hparams, hb⟩ := startsKeypadScan_of_accept hs hsteady hrows hsettle hf (startsNow_scanOnce htr)
  have hsample : ∀ j ≤ k.col.toNat, t.scanSample j = keypadSample (some k) j := fun j hj =>
    scanSample_keypad hstart (by omega) fun i hi => keypadSample_of_lt (by omega)
  have hmiss : ∀ i < k.col.toNat, t.scanSample i = 0 := fun i hi => by rw [hsample i hi.le, keypadSample_of_lt hi]
  rw [← hparams]
  constructor
  · intro j i hj hi
    obtain ⟨u, hu, hphase, hfsm⟩ :=
      runCycles_scanPhase hstart.toStartsScan (j := j) (by omega) (fun i hi => hmiss i (by omega)) hi
    have hbusy : u.block.fsm ≠ .idle := by rw [hfsm]; split_ifs <;> nofun
    rw [Nat.add_assoc]
    refine after_of_step ht ⟨u, hu, hphase.colIdx, colN_of_inScanPhase hphase hbusy, decide_eq_true hbusy,
      not_done_of_inScanPhase hphase hbusy, ?_⟩
    rintro rfl
    exact ⟨by rw [hfsm, if_pos rfl], by rw [← scanSample_eq hu, hsample j hj]; rfl⟩
  · have hhit : lowestSet (t.scanSample k.col.toNat) = some k.row := by
      rw [hsample _ le_rfl, keypadSample_col, lowestSet_shiftLeft]
    obtain ⟨u, hu, hidle, hcolN, hdone, hkey, hres⟩ :=
      scanOnce_after_hit hstart.toStartsScan (by rw [hb]; rfl) hmiss hhit
    exact after_of_step ht ⟨u, hu, hidle, hcolN, hdone, hkey, by rw [hres, resultWord_toNat]⟩

/-- Settles O56: no phase of a scan on an idle keypad samples an active row. -/
theorem scanOnceOnAnIdleKeypad : Obligations.ScanOnceOnAnIdleKeypad := by
  intro s hs hsteady hrows hsettle hf htr
  obtain ⟨t, ht, hstart, hparams, hb⟩ := startsKeypadScan_of_accept hs hsteady hrows hsettle hf (startsNow_scanOnce htr)
  have hmiss : ∀ i < 4, t.scanSample i = 0 := fun i hi => scanSample_keypad hstart hi fun _ _ => rfl
  rw [← hparams]
  refine ⟨fun j hj => ?_, after_of_step ht (scanOnce_after_misses hstart.toStartsScan (by rw [hb]; rfl) hmiss)⟩
  rw [← hmiss j hj]
  exact after_scanSample ht hstart.toStartsScan hj fun i hi => hmiss i (by omega)

end Sys2Proof.Machine

/-! PROOFS. The family 42_wait_for_keypress.md: how a scan of the debounce FSM ends, and the `WAIT_KEYPRESS` command. -/

namespace Sys2Proof.Machine

/-! ### The edge that ends a scan of the debounce FSM -/

theorem scanEnd_of_press_noKey {p : Params} {b pre : Block} (hop : pre.op = .wait) (hw : pre.wph = .press) :
    b.scanEnd p .noKey pre = b.startScan := by simp [Block.scanEnd, hop, hw]

theorem scanEnd_of_press_hit {p : Params} {b pre : Block} (hop : pre.op = .wait) (hw : pre.wph = .press) (k : Key)
    (sym : SymCode) : b.scanEnd p (.hit k sym) pre = b.latchPress k := by simp [Block.scanEnd, hop, hw]

theorem scanEnd_of_release_hit {p : Params} {b pre : Block} (hop : pre.op = .wait) (hw : pre.wph = .release) (k : Key)
    (sym : SymCode) : b.scanEnd p (.hit k sym) pre = b.startScan := by simp [Block.scanEnd, hop, hw]

theorem scanEnd_of_release_noKey {p : Params} {b pre : Block} (hop : pre.op = .wait) (hw : pre.wph = .release) :
    b.scanEnd p .noKey pre = b.completeWait p pre := by simp [Block.scanEnd, hop, hw]

/-- Starting the next scan leaves what R84 says, whatever it does to the stage and the latched key before. -/
theorem startsNextScan_startScan {s : State} {b : Block} (hop : b.op = s.block.op) (h : s.block.SameReport b) :
    s.startsNextScan (({ b.startScan with
      stErr := s.block.stErr || s.rejectsNow } : Block).rowSync s.rowN s.block) :=
  ⟨rfl, rfl, rfl, rfl, hop, h.stDone, h.stKey, h.res, rfl⟩

/-- STATUS bit 6 is RLS (R28). -/
theorem status_rls (b : Block) : b.status.getLsbD 6 = b.rls := by
  simp only [Block.status, BitVec.append_ofBool, BitVec.getLsbD_concat_succ, BitVec.getLsbD_append]
  simp

theorem rls_of_release {b : Block} (hf : b.fsm = .settle) (hop : b.op = .wait) (hw : b.wph = .release) :
    b.rls = true := by simp [Block.rls, Block.busy, hf, hop, hw]

/-! ### The statements about one edge -/

/-- Settles O35: with no key the phase-end step is `StartScan`. -/
theorem pressScanWithoutKeyRepeats : Obligations.PressScanWithoutKeyRepeats := by
  intro s hr hf hop hw ha hc
  apply cycleGives_of_sampleStep hr hf
  rw [sampleStep_of_last_miss ha hc, scanEnd_of_press_noKey hop hw]
  exact ⟨startsNextScan_startScan rfl ⟨rfl, rfl, rfl⟩, hw, rfl, rfl⟩

/-- Settles O36: with a key the phase-end step latches it and enters the release stage, then starts a scan. -/
theorem pressScanWithKeyLatches : Obligations.PressScanWithKeyLatches := by
  intro s r hr hf hop hw hlow
  apply cycleGives_of_sampleStep hr hf
  rw [sampleStep_of_hit hlow, scanEnd_of_press_hit hop hw, status_rls]
  exact ⟨startsNextScan_startScan rfl ⟨rfl, rfl, rfl⟩, rfl, rfl, rfl, rls_of_release rfl hop rfl⟩

/-- Settles O37: an active row is a hit, after which the phase-end step is `StartScan`. -/
theorem releaseScanWithKeyRepeats : Obligations.ReleaseScanWithKeyRepeats := by
  intro s hr hf hop hw ha
  obtain ⟨r, hlow⟩ := (exists_lowestSet_or_eq_zero _).resolve_right ha
  apply cycleGives_of_sampleStep hr hf
  rw [sampleStep_of_hit hlow, scanEnd_of_release_hit hop hw]
  exact ⟨startsNextScan_startScan rfl ⟨rfl, rfl, rfl⟩, hw, rfl, rfl⟩

/-- Settles O38: with no key the phase-end step completes the command with the latched key. -/
theorem releaseScanWithoutKeyCompletes : Obligations.ReleaseScanWithoutKeyCompletes := by
  intro s hr hf hop hw ha hc
  apply cycleGives_of_sampleStep hr hf
  rw [sampleStep_of_last_miss ha hc, scanEnd_of_release_noKey hop hw]
  exact ⟨rfl, rfl, rfl, rfl, rfl, rfl, rfl, resultWord_toNat _ _, rfl, rfl, rfl, rfl⟩

/-! ### The samples of a scan on a keypad -/

theorem scanSample_of_idleKeypad {s : State} (hs : s.StartsKeypadScan none) : ∀ i < 4, s.scanSample i = 0 :=
  fun _ hi => scanSample_keypad hs hi fun _ _ => rfl

theorem scanSample_before_heldKey {s : State} {k : Key} (hs : s.StartsKeypadScan (some k)) :
    ∀ i < k.col.toNat, s.scanSample i = 0 := fun i hi => by
  rw [scanSample_keypad hs (by omega) fun j hj => keypadSample_of_lt (hj.trans hi), keypadSample_of_lt hi]

theorem lowestSet_scanSample_heldKey {s : State} {k : Key} (hs : s.StartsKeypadScan (some k)) :
    lowestSet (s.scanSample k.col.toNat) = some k.row := by
  rw [scanSample_keypad hs k.col.isLt fun i hi => keypadSample_of_lt hi, keypadSample_col, lowestSet_shiftLeft]

/-! ### The scans of a command -/

/-- `t` is the first cycle of a later scan of the command that runs in `s`, with the report as in `s`. -/
structure State.NextScan (s t : State) : Prop extends t.StartsScan where
  params : t.params = s.params
  op : t.block.op = s.block.op
  report : s.block.SameReport t.block

theorem cycleGives_imp {s : State} {P Q : Block → Prop} (h : s.cycleGives P) (hPQ : ∀ b, P b → Q b) : s.cycleGives Q :=
  h.imp fun _ ⟨ht, hP⟩ => ⟨ht, fun hr => hPQ _ (hP hr)⟩

/-- A scan that comes to column `j`, and whose edge there starts the next scan with `P`, does so after `j + 1` phases. -/
theorem runCycles_nextScan {s : State} (hs : s.StartsScan) {j : Nat} (hj : j < 4)
    (hmiss : ∀ i < j, s.scanSample i = 0) {P : Block → Prop}
    (hend : ∀ t, s.InScanPhase j t → t.block.fsm = .sample → activeRows t.block.s2 = s.scanSample j →
      t.cycleGives fun b => t.startsNextScan b ∧ P b) :
    ∃ u, runCycles ((j + 1) * (s.params.settleCycles + 1)) s = .next u ∧ s.NextScan u ∧ P u.block := by
  obtain ⟨t, ht, hphase, hf, ha⟩ := runCycles_scanSample hs hj hmiss
  obtain ⟨u, hu, hn, ⟨hfsm, hcol, hcnt, -, hop, hdone, hkey, hres, -⟩, hP⟩ :=
    step_of_cycleGives hphase.noReset (hend t hphase hf ha)
  obtain ⟨hopT, -, -, -, hdoneT, hkeyT, hresT⟩ := hphase.scan
  refine ⟨u, by rw [Nat.succ_mul]; exact runCycles_succ hu ht, ?_, hP⟩
  exact ⟨⟨step_keeps_inv hphase.inv hu, hn, hfsm, hcnt, hcol⟩, (step_agents hu).1.trans hphase.params, hop.trans hopT,
    hdone.trans hdoneT, hkey.trans hkeyT, hres.trans hresT⟩

/-- Through the phases that a scan comes to, the block is busy with the report as at its start. -/
theorem after_withinScan {s : State} (hs : s.StartsScan) {j n : Nat} (hj : j < 4)
    (hmiss : ∀ i < j, s.scanSample i = 0) (hn : n < (j + 1) * (s.params.settleCycles + 1)) :
    s.after n fun t => t.block.busy = true ∧ t.block.stDone = false ∧ t.block.res = s.block.res := by
  have hcol : n / (s.params.settleCycles + 1) ≤ j := Nat.lt_succ_iff.mp (Nat.div_lt_of_lt_mul (Nat.mul_comm _ _ ▸ hn))
  obtain ⟨t, ht, hphase, hfsm⟩ := runCycles_scanPhase hs (hcol.trans_lt hj) (fun i hi => hmiss i (hi.trans_le hcol))
    (Nat.lt_succ_iff.mp (Nat.mod_lt n (Nat.succ_pos s.params.settleCycles)))
  rw [Nat.div_add_mod'] at ht
  have hbusy : t.block.fsm ≠ .idle := by rw [hfsm]; split_ifs <;> nofun
  exact ⟨t, ht, decide_eq_true hbusy, not_done_of_inScanPhase hphase hbusy, hphase.scan.report.res⟩

/-! ### The command `WAIT_KEYPRESS` -/

theorem startsNow_waitKeypress {s : State} (h : s.transaction = some .wrCtrlWaitKeypress) :
    s.startsNow = some .wait := by
  rw [State.startsNow, h]

/-- The press stage latches the key that a scan finds, and starts the first scan of the release stage (R95). -/
theorem runCycles_latchesHeldKey {s : State} {k : Key} (hs : s.StartsKeypadScan (some k)) (hop : s.block.op = .wait)
    (hw : s.block.wph = .press) :
    ∃ t, runCycles ((k.col.toNat + 1) * (s.params.settleCycles + 1)) s = .next t ∧ s.NextScan t
      ∧ t.block.wph = .release ∧ t.block.prow = k.row ∧ t.block.pcol = k.col := by
  refine runCycles_nextScan (P := fun b => b.wph = .release ∧ b.prow = k.row ∧ b.pcol = k.col) hs.toStartsScan k.col.isLt
    (scanSample_before_heldKey hs) fun t ht hf ha => ?_
  have hcol : t.block.colIdx = k.col := BitVec.eq_of_toNat_eq ht.colIdx
  refine cycleGives_imp (pressScanWithKeyLatches t k.row ht.noReset.1 hf (ht.scan.op.trans hop) (ht.scan.wph.trans hw)
    (by rw [ha, lowestSet_scanSample_heldKey hs])) ?_
  rintro b ⟨hnext, hrelease, hrow, hlatched, -⟩
  exact ⟨hnext, hrelease, hrow, hlatched.trans hcol⟩

/-- A held key keeps the command going from scan to scan, in either stage (R95, R96, R102). -/
theorem runCycles_nextScan_of_heldKey {s : State} {k : Key} (hs : s.StartsKeypadScan (some k))
    (hop : s.block.op = .wait) :
    ∃ t, runCycles ((k.col.toNat + 1) * (s.params.settleCycles + 1)) s = .next t ∧ s.NextScan t := by
  cases hw : s.block.wph with
  | press =>
    obtain ⟨t, ht, hnext, -⟩ := runCycles_latchesHeldKey hs hop hw
    exact ⟨t, ht, hnext⟩
  | release =>
    obtain ⟨t, ht, hnext, -⟩ := runCycles_nextScan (P := (·.wph = .release)) hs.toStartsScan k.col.isLt
      (scanSample_before_heldKey hs) fun t ht hf ha => by
        have hact : activeRows t.block.s2 ≠ 0 :=
          ha ▸ activeRows_ne_zero_of_lowestSet (lowestSet_scanSample_heldKey hs)
        exact cycleGives_imp (releaseScanWithKeyRepeats t ht.noReset.1 hf (ht.scan.op.trans hop)
          (ht.scan.wph.trans hw) hact) fun _ ⟨hnext, hw, _⟩ => ⟨hnext, hw⟩
    exact ⟨t, ht, hnext⟩

/-- On an idle keypad the press stage goes on from scan to scan (R94, R101). -/
theorem runCycles_nextScan_of_idleKeypad {s : State} (hs : s.StartsKeypadScan none) (hop : s.block.op = .wait)
    (hw : s.block.wph = .press) :
    ∃ t, runCycles (4 * (s.params.settleCycles + 1)) s = .next t ∧ s.NextScan t ∧ t.block.wph = .press := by
  have hmiss := scanSample_of_idleKeypad hs
  refine runCycles_nextScan (P := (·.wph = .press)) (j := 3) hs.toStartsScan (by omega)
    (fun i hi => hmiss i (by omega)) fun t ht hf ha => ?_
  have hact : activeRows t.block.s2 = 0 := ha.trans (hmiss 3 (by omega))
  exact cycleGives_imp (pressScanWithoutKeyRepeats t ht.noReset.1 hf (ht.scan.op.trans hop) (ht.scan.wph.trans hw) hact
    (BitVec.eq_of_toNat_eq ht.colIdx)) fun _ ⟨hnext, hw, _⟩ => ⟨hnext, hw⟩

/-- `s` is the first cycle of a scan of `WAIT_KEYPRESS` that the keypad, as it stays, does not let complete: no key is pressed
and the press stage waits for one, or a key is held (R101, R102). -/
structure State.WaitsOn (pressed : Option Key) (s : State) : Prop extends s.StartsKeypadScan pressed where
  op : s.block.op = .wait
  press : pressed = none → s.block.wph = .press

theorem waitsOn_of_nextScan {pressed : Option Key} {s t : State} {n : Nat} (hs : s.WaitsOn pressed)
    (hrun : runCycles n s = .next t) (ht : s.NextScan t) (hw : pressed = none → t.block.wph = .press) :
    t.WaitsOn pressed := by
  obtain ⟨hsteady, hrows, -⟩ := steady_runCycles hrun hs.steady
  exact ⟨⟨ht.toStartsScan, hsteady, hrows.trans hs.rows, by rw [ht.params, hs.settle]⟩, ht.op.trans hs.op, hw⟩

/-- Such a scan is followed by another one; until its last phase, that of some column `j`, no phase finds a key. -/
theorem runCycles_waitsOn {pressed : Option Key} {s : State} (hs : s.WaitsOn pressed) :
    ∃ j < 4, (∀ i < j, s.scanSample i = 0)
      ∧ ∃ t, runCycles ((j + 1) * (s.params.settleCycles + 1)) s = .next t ∧ t.WaitsOn pressed
        ∧ t.block.res = s.block.res := by
  cases pressed with
  | none =>
    obtain ⟨t, ht, hnext, hw⟩ := runCycles_nextScan_of_idleKeypad hs.toStartsKeypadScan hs.op (hs.press rfl)
    have hmiss := scanSample_of_idleKeypad hs.toStartsKeypadScan
    exact ⟨3, by omega, fun i hi => hmiss i (by omega), t, ht, waitsOn_of_nextScan hs ht hnext fun _ => hw,
      hnext.report.res⟩
  | some k =>
    obtain ⟨t, ht, hnext⟩ := runCycles_nextScan_of_heldKey hs.toStartsKeypadScan hs.op
    exact ⟨k.col.toNat, k.col.isLt, scanSample_before_heldKey hs.toStartsKeypadScan, t, ht,
      waitsOn_of_nextScan hs ht hnext nofun, hnext.report.res⟩

/-- By induction over the scans: each cycle is in the present one, or comes after it. -/
theorem after_waitsOn {pressed : Option Key} (n : Nat) {s : State} (hs : s.WaitsOn pressed) :
    s.after n fun t => t.block.busy = true ∧ t.block.stDone = false ∧ t.block.res = s.block.res := by
  induction n using Nat.strong_induction_on generalizing s with
  | _ n ih =>
    obtain ⟨j, hj, hmiss, u, hu, hnext, hres⟩ := runCycles_waitsOn hs
    by_cases hn : n < (j + 1) * (s.params.settleCycles + 1)
    · exact after_withinScan hs.toStartsScan hj hmiss hn
    · have hpos : 0 < (j + 1) * (s.params.settleCycles + 1) := by positivity
      obtain ⟨m, rfl⟩ := Nat.exists_eq_add_of_le (Nat.le_of_not_lt hn)
      obtain ⟨t, ht, hP⟩ := ih m (by omega) hnext
      exact ⟨t, runCycles_add ht hu, hres ▸ hP⟩

/-! ### The statements about the whole command -/

/-- Settles O57: the accepted command starts a scan of the press stage, which finds the key in its column. -/
theorem waitDetectsTheHeldKey : Obligations.WaitDetectsTheHeldKey := by
  intro s k hs hsteady hrows hsettle hf htr
  obtain ⟨t, ht, hstart, hparams, hb⟩ :=
    startsKeypadScan_of_accept hs hsteady hrows hsettle hf (startsNow_waitKeypress htr)
  have hop : t.block.op = .wait := by rw [hb]; rfl
  have hres : t.block.res = s.block.res := by rw [hb]; rfl
  obtain ⟨u, hu, hnext, hw, hrow, hcol⟩ := runCycles_latchesHeldKey hstart hop (by rw [hb]; rfl)
  have hopU := hnext.op.trans hop
  rw [← hparams]
  exact after_of_step ht ⟨u, hu, hnext.fsm, hnext.colIdx, hnext.cnt, hopU, hw, hrow, hcol,
    rls_of_release hnext.fsm hopU hw, not_done_of_legal hnext.inv.legal (by simp [hnext.fsm]), hnext.report.res.trans hres⟩

/-- Settles O58: all four phases of the scan miss, and its last edge completes the command with the key latched before. -/
theorem waitReportsTheLatchedKeyOnRelease : Obligations.WaitReportsTheLatchedKeyOnRelease := by
  intro s hs hsteady hrows hsettle hf hcol hcnt hop hw
  have hscan : s.StartsScan := ⟨hs, noReset_of_steady hsteady, hf, hcnt, hcol⟩
  have hmiss := scanSample_of_idleKeypad ⟨hscan, hsteady, hrows, hsettle⟩
  obtain ⟨t, ht, hphase, hsample, ha⟩ := runCycles_scanSample hscan (j := 3) (by omega) fun i hi => hmiss i (by omega)
  obtain ⟨u, hu, -, hidle, -, -, -, -, hdone, hkey, hres, -⟩ := step_of_cycleGives hphase.noReset
    (releaseScanWithoutKeyCompletes t hphase.noReset.1 hsample (hphase.scan.op.trans hop) (hphase.scan.wph.trans hw)
      (by rw [ha, hmiss 3 (by omega)]) (BitVec.eq_of_toNat_eq hphase.colIdx))
  rw [hphase.scan.prow, hphase.scan.pcol, hphase.params] at hres
  exact ⟨u, by rw [Nat.succ_mul]; exact runCycles_succ hu ht, hidle, hdone, hkey, hres⟩

/-- Settles O59: the accepted command starts the first of the scans that do not let it complete. -/
theorem waitNeverCompletesWithoutPressAndRelease : Obligations.WaitNeverCompletesWithoutPressAndRelease := by
  intro s pressed hs hsteady hrows hsettle hf htr n
  obtain ⟨t, ht, hstart, -, hb⟩ := startsKeypadScan_of_accept hs hsteady hrows hsettle hf (startsNow_waitKeypress htr)
  have hwaits : t.WaitsOn pressed := ⟨hstart, by rw [hb]; rfl, fun _ => by rw [hb]; rfl⟩
  have hres : t.block.res = s.block.res := by rw [hb]; rfl
  exact after_succ ht (hres ▸ after_waitsOn n hwaits)

end Sys2Proof.Machine

/-! PROOFS. The family 43_host_access.md: what each write does, what each read returns, and what the registers are after them. -/

namespace Sys2Proof.Machine

/-! ### The start commands -/

/-- The transaction that starts an operation (R106, R107). -/
def Op.startInstr : Op → Instr
  | .scan => .wrCtrlScanOnce
  | .wait => .wrCtrlWaitKeypress

theorem exists_startInstr {i : Instr} (h : i = .wrCtrlScanOnce ∨ i = .wrCtrlWaitKeypress) : ∃ o : Op, i = o.startInstr :=
  h.elim (fun h => ⟨.scan, h⟩) fun h => ⟨.wait, h⟩

theorem exec_startInstr (o : Op) (s : State) : exec o.startInstr s = .next (s.startCommand o) := by
  cases o <;> rfl

theorem startCommand_of_idle {s : State} (o : Op) (hf : s.block.fsm = .idle) :
    s.startCommand o = { s with block := s.block.accept o } := by simp [State.startCommand, Block.busy, hf]

theorem startCommand_of_busy {s : State} (o : Op) (hb : s.block.busy = true) :
    s.startCommand o = { s with block := s.block.reject } := by simp [State.startCommand, hb]

/-- A live cycle that carries a start command, accepted or rejected. -/
theorem step_startInstr {s : State} {o : Op} (hr : s.rstN = true) (hf : s.block.fsm ≠ .rsvd11)
    (ht : s.transaction = some o.startInstr) : step s = .next (clockEdge s (s.startCommand o)) :=
  step_some hr hf ht (exec_startInstr o s)

/-- From idle the FSM makes no step of its own at the edge of an acceptance (R110). -/
theorem clockEdge_startCommand_of_idle {s : State} (o : Op) (hf : s.block.fsm = .idle) (hr : s.nextEnv.rstN = true) :
    (clockEdge s (s.startCommand o)).block = (s.block.accept o).rowSync s.rowN s.block := by
  rw [startCommand_of_idle o hf, clockEdge_block, if_pos hr, Block.edge, fsmStep_idle hf]

/-! ### A rejection -/

/-- A rejection passes through the edge: the FSM's step neither reads nor writes `st_err` (R108, R124). -/
theorem edge_reject (p : Params) (rowN : Lines) (b pre : Block) : b.reject.edge p rowN pre = (b.edge p rowN pre).reject := by
  rw [Block.edge, Block.reject, fsmStep_stErr]
  rfl

theorem clockEdge_reject {pre : State} (hr : pre.nextEnv.rstN = true) (s : State) :
    clockEdge pre { s with block := s.block.reject }
      = { clockEdge pre s with block := (clockEdge pre s).block.reject } := by
  simp only [clockEdge, nextCycle, if_pos hr, edge_reject]

/-- The cycle without a transaction in the place of a cycle that carries a word. -/
theorem step_withNobus {s : State} {w : Txn} {rest : List HostLine} (hr : s.rstN = true) (hf : s.block.fsm ≠ .rsvd11)
    (hh : s.host = .word w :: rest) : step { s with host := .nobus 1 :: rest } = .next (clockEdge s s) := by
  rw [← clockEdge_withHost (host := .nobus 1 :: rest) (by rw [hh]; rfl)]
  exact step_none hr hf (transaction_nobus rfl)

/-! ### What a transaction leaves unchanged -/

/-- No transaction writes RESULT, the latched key or the synchroniser. -/
theorem hostBlock_frame (i : Instr) (b : Block) :
    (hostBlock i b).res = b.res ∧ (hostBlock i b).prow = b.prow ∧ (hostBlock i b).pcol = b.pcol
      ∧ (hostBlock i b).s1 = b.s1 ∧ (hostBlock i b).s2 = b.s2 := by
  obtain h | h | ⟨-, o, h⟩ := hostBlock_cases i b <;> rw [h] <;> exact ⟨rfl, rfl, rfl, rfl, rfl⟩

/-- While busy a transaction writes at most ERR (R108, R109). -/
theorem hostBlock_of_busy (i : Instr) {b : Block} (hb : b.busy = true) :
    hostBlock i b = { b with stErr := (hostBlock i b).stErr } := by
  obtain h | h | ⟨hf, -⟩ := hostBlock_cases i b
  · rw [h]
  · rw [h]; rfl
  · simp [Block.busy, hf] at hb

/-- Of the register space, RESULT depends on `res` alone, and CTRL and address 0x3 on nothing (R27, R35, R36). -/
theorem readReg_of_ne_status {a : RegAddr} {b b' : Block} (ha : a ≠ 1) (hres : b'.res = b.res) :
    b'.readReg a = b.readReg a := by
  obtain rfl | rfl | rfl | rfl := regAddr_cases a
  · rfl
  · exact absurd rfl ha
  · exact hres
  · rfl

/-- A transaction that neither stores nor reads answers the same state (R105, R111-R113). -/
theorem exec_ignored {i : Instr} (hstores : i.storesNothing = true) (hreads : i.readAddr = none) (s : State) :
    exec i s = .next s := by
  obtain ⟨t, ht⟩ := exec_answers i s
  have hret : t.returned = s.returned := by simpa [hreads] using exec_returned ht
  rw [ht, exec_storesNothing hstores ht, hret]

/-- A read appends the value of its register to the values returned, and changes nothing else (R44, R48). -/
theorem exec_read {i : Instr} {a : RegAddr} {s : State} {x : Byte} (h : i.readAddr = some a) (hx : s.block.readReg a = x) :
    exec i s = .next { s with returned := s.returned ++ [x] } := by
  subst hx
  cases i <;> cases h <;> rfl

/-! ### The fields of STATUS (R28) -/

/-- STATUS, its four low bits one at a time. -/
theorem status_eq_concat (b : Block) :
    b.status = ((((0#1 ++ BitVec.ofBool b.rls ++ b.colIdx).concat b.stErr).concat b.stKey).concat b.stDone).concat b.busy := by
  simp only [Block.status, BitVec.append_ofBool]

theorem status_done (b : Block) : b.status.getLsbD 1 = b.stDone := by
  rw [status_eq_concat, BitVec.getLsbD_concat_succ, BitVec.getLsbD_concat_zero]

theorem status_key (b : Block) : b.status.getLsbD 2 = b.stKey := by
  rw [status_eq_concat]
  simp only [BitVec.getLsbD_concat_succ, BitVec.getLsbD_concat_zero]

theorem status_err (b : Block) : b.status.getLsbD 3 = b.stErr := by
  rw [status_eq_concat]
  simp only [BitVec.getLsbD_concat_succ, BitVec.getLsbD_concat_zero]

theorem status_high (b : Block) (n : Nat) :
    b.status.getLsbD (n + 4) = (0#1 ++ BitVec.ofBool b.rls ++ b.colIdx).getLsbD n := by
  rw [status_eq_concat]
  simp only [BitVec.getLsbD_concat_succ]

theorem status_col (b : Block) : b.status.extractLsb' 4 2 = b.colIdx := by
  refine BitVec.eq_of_getLsbD_eq fun i hi => ?_
  rw [BitVec.getLsbD_extractLsb', Nat.add_comm 4 i, status_high, BitVec.getLsbD_append]
  simp [hi]

theorem status_msb (b : Block) : b.status.getLsbD 7 = false := by
  rw [status_high b 3, BitVec.getLsbD_append, BitVec.getLsbD_append]
  rfl

theorem busy_iff (b : Block) : b.busy = true ↔ b.fsm ≠ .idle := by simp [Block.busy]

theorem rls_iff (b : Block) : b.rls = true ↔ b.fsm ≠ .idle ∧ b.op = .wait ∧ b.wph = .release := by
  simp [Block.rls, Block.busy, and_assoc]

/-! ### The statements about writes -/

/-- Settles O19: the rejection passes through an edge that is otherwise that of the cycle without a transaction. -/
theorem startCommandRejectedWhenBusy : Obligations.StartCommandRejectedWhenBusy := by
  intro s i hi hb
  obtain ⟨o, rfl⟩ := exists_startInstr hi
  have hreject := startCommand_of_busy o hb
  refine ⟨by rw [exec_startInstr, hreject]; rfl, fun w rest hr hf hh hw => ?_⟩
  have ht : s.transaction = some o.startInstr := by rw [transaction_word hh, hw]
  refine ⟨_, _, step_startInstr hr hf ht, step_withNobus hr hf hh, fun hr' => ?_⟩
  rw [hreject, clockEdge_reject hr']
  rfl

/-- Settles O28: a command's registers are those of `hostBlock`, and it reads nothing. -/
theorem commandWriteFrame : Obligations.CommandWriteFrame := by
  intro i s t hi h
  have hreads : i.readAddr = none := by
    simp only [List.mem_cons, List.not_mem_nil, or_false] at hi
    rcases hi with rfl | rfl | rfl <;> rfl
  have hb := exec_block h
  obtain ⟨hres, hrow, hcol, h1, h2⟩ := hostBlock_frame i s.block
  obtain ⟨hp, hr, hrows, hheld, henv, hhost, hc⟩ := exec_agents h
  have hret : t.returned = s.returned := by simpa [hreads] using exec_returned h
  rw [hb]
  refine ⟨hres, hrow, hcol, h1, h2, fun a ha => readReg_of_ne_status ha hres, hp, hr, hrows, hheld, henv, hhost, hret, hc, ?_⟩
  rintro (rfl | hbusy)
  · rfl
  · exact hostBlock_of_busy i hbusy

/-- Settles O18: `Accept` from idle, and the edge at which the FSM makes no step of its own. -/
theorem startCommandAcceptedWhenIdle : Obligations.StartCommandAcceptedWhenIdle := by
  intro s o i hf hi
  obtain rfl : i = o.startInstr := by rw [hi]; cases o <;> rfl
  refine ⟨by rw [exec_startInstr, startCommand_of_idle o hf]; rfl, fun hr ht => ?_⟩
  refine ⟨_, step_startInstr hr (by simp [hf]) ht, fun hr' => ?_⟩
  rw [clockEdge_startCommand_of_idle o hf hr']
  rfl

/-- Settles O20: the operation is `Block.reject`, with no condition on BUSY. -/
theorem reservedOpSetsErrOnly : Obligations.ReservedOpSetsErrOnly := fun _ => rfl

/-- Settles O21: these four transactions neither store nor read. -/
theorem ignoredWritesChangeNothing : Obligations.IgnoredWritesChangeNothing := fun s =>
  ⟨exec_ignored rfl rfl s, fun _ => ⟨exec_ignored rfl rfl s, exec_ignored rfl rfl s, exec_ignored rfl rfl s⟩⟩

/-! ### The statements about reads -/

/-- Settles O22: the registers at addresses 0 and 3 are constant. -/
theorem reservedReadsReturnZero : Obligations.ReservedReadsReturnZero := fun s =>
  ⟨exec_read rfl (readReg_ctrl s.block), exec_read rfl (readReg_rsvd3 s.block)⟩

/-- Settles O23: the value read is `Block.status`; legal registers clear DONE while busy and COL while idle. -/
theorem statusRead : Obligations.StatusRead := by
  intro s
  refine ⟨s.block.status, exec_read rfl (readReg_status _), status_msb _, ?_, status_col _, status_err _, status_key _,
    status_done _, ?_, fun hs => ⟨?_, ?_⟩⟩
  · rw [status_rls, rls_iff]
  · rw [status_busy, busy_iff]
  · rw [status_done, status_busy, busy_iff]
    exact fun ⟨hdone, hbusy⟩ => hbusy (hs.legal.done_idle hdone)
  · rw [status_busy, status_col]
    intro hidle
    exact (hs.legal.idle_rest (by simpa [Block.busy] using hidle)).1

/-- Settles O24: a coherent RESULT with KEY set is the word of a key, whose fields are the digits. -/
theorem resultRead : Obligations.ResultRead := by
  refine fun s => ⟨exec_read rfl (readReg_result s.block), fun hs _ hkey => ?_⟩
  obtain ⟨k, hres⟩ := hs.key_word hkey
  exact ⟨k, by rw [hres, resultWord_toNat]⟩

/-- Settles O26: the second cycle reads STATUS of the registers that the acceptance left. -/
theorem noStaleIdleReadAfterStart : Obligations.NoStaleIdleReadAfterStart := by
  intro s w w' rest hr hr' hf hh hw hw'
  obtain ⟨o, ho⟩ := exists_startInstr hw
  have hstart := step_startInstr hr (by simp [hf]) (by rw [transaction_word hh, ho])
  have hblock := clockEdge_startCommand_of_idle o hf hr'
  have hlive : (clockEdge s (s.startCommand o)).block.fsm ≠ .rsvd11 := by rw [hblock]; nofun
  have hread : (clockEdge s (s.startCommand o)).transaction = some .rdStatus := by
    rw [← hw']
    exact transaction_word (by rw [clockEdge_host, hh]; rfl)
  refine ⟨_, _, _, hstart, step_some hr' hlive hread (exec_read rfl (readReg_status _)), rfl, ?_, ?_⟩
  · rw [hblock, status_busy]; rfl
  · rw [hblock, status_done]; rfl

end Sys2Proof.Machine

/-! PROOFS. The family 60_exceptions.md: every step answers, and the host's and the FSM's writes share an edge. -/

namespace Sys2Proof.Machine

/-! ### The registers at an edge -/

/-- While idle the FSM makes no step: the edge is the synchroniser's shift alone (R24, R131). -/
theorem edge_of_idle {p : Params} {r : Lines} {b pre : Block} (hf : pre.fsm = .idle) : b.edge p r pre = b.rowSync r pre := by
  rw [Block.edge, fsmStep_idle hf]

/-- The edge's own actions leave `st_err`, which only the host's commands write (R34, R124). -/
theorem edge_stErr (p : Params) (r : Lines) (b pre : Block) : (b.edge p r pre).stErr = b.stErr :=
  (congrArg Block.stErr (fsmStep_stErr p b pre b.stErr) :)

/-- A start command in a busy cycle is rejected (R108). -/
theorem rejectsNow_of_startsNow {s : State} (hstart : s.startsNow.isSome = true) (hb : s.block.busy = true) :
    s.rejectsNow = true := by simp [State.rejectsNow, hstart, hb]

/-- STATUS while idle with COL at rest is its three flags (R28). -/
theorem status_of_idle {b : Block} (hf : b.fsm = .idle) (hc : b.colIdx = 0) :
    b.status = 0#4 ++ BitVec.ofBool b.stErr ++ BitVec.ofBool b.stKey ++ BitVec.ofBool b.stDone ++ 0#1 := by
  have hbusy : b.busy = false := by simp [Block.busy, hf]
  have hrls : b.rls = false := by simp [Block.rls, hbusy]
  rw [Block.status, hrls, hbusy, hc]
  rfl

/-! ### The statements -/

/-- Settles O16: a step from a defined `fsm` answers, and no action makes `fsm` 11. -/
theorem stepAlwaysAnswers : Obligations.StepAlwaysAnswers := fun _ hf =>
  (step_answers hf).imp fun _ ht => ⟨ht, step_fsm_ne_rsvd11 ht hf⟩

/-- Settles O30: a transaction writes nothing; or only `st_err`, which the edge leaves; or it is accepted from idle, where the
edge writes only `s1` and `s2`, which an acceptance leaves. -/
theorem hostAndFsmWriteSetsAreDisjoint : Obligations.HostAndFsmWriteSetsAreDisjoint := by
  intro i s t r hx
  rw [exec_block hx]
  obtain hb | hb | ⟨hf, o, hb⟩ := hostBlock_cases i s.block <;> rw [hb]
  · and_intros <;> exact .inl ⟨rfl, rfl⟩
  · rw [edge_reject]
    refine ⟨?_, ?_, ?_, ?_, ?_, ?_, ?_, ?_, ?_, ?_, ?_, ?_, ?stErr, ?_⟩
    case stErr => exact .inr ⟨edge_stErr .., rfl⟩
    all_goals exact .inl ⟨rfl, rfl⟩
  · rw [edge_of_idle hf, edge_of_idle hf]
    refine ⟨?_, ?_, ?_, ?_, ?_, ?_, ?s1, ?s2, ?_, ?_, ?_, ?_, ?_, ?_⟩
    case s1 | s2 => exact .inl ⟨rfl, rfl⟩
    all_goals exact .inr ⟨rfl, rfl⟩

/-- Settles O13: the fields of `clockEdge`, one by one. -/
theorem clockEdgeMovesTheCycleOn : Obligations.ClockEdgeMovesTheCycleOn := fun s t =>
  ⟨clockEdge_block s t, clockEdge_params s t, clockEdge_returned s t, clockEdge_rstN s t, clockEdge_rows s t,
    clockEdge_env s t, clockEdge_host s t, clockEdge_cycle s t, clockEdge_rowsHeld s t⟩

/-- Settles O15: with no transaction and no FSM step the edge only shifts `row_sync`. -/
theorem idleCycleChangesOnlyRowSync : Obligations.IdleCycleChangesOnlyRowSync := by
  intro s hr hf hsel
  refine ⟨_, step_none hr (by simp [hf]) (transaction_eq_none.mpr hsel), fun hr' => ?_⟩
  rw [clockEdge_rstN] at hr'
  rw [clockEdge_block, if_pos hr', edge_of_idle hf]
  rfl

/-- Settles O31: the scan completes without a key while the block, still busy before the edge, rejects the start command. -/
theorem startOnTheCompletionEdgeIsRejected : Obligations.StartOnTheCompletionEdgeIsRejected := by
  intro s hr hf hop hc hs2 hstart
  have hreject : s.rejectsNow = true := rejectsNow_of_startsNow hstart (by simp [Block.busy, hf])
  obtain ⟨hcomplete, -⟩ := scanOnceCompletes s hr hf hop
  refine cycleGives_imp (hcomplete (by rw [hs2]; rfl) hc) fun b hb => ?_
  obtain ⟨hidle, -, hcol, -, -, hdone, hkey, -, -, -, -, herr⟩ := hb
  rw [hreject, Bool.or_true] at herr
  exact ⟨by rw [status_of_idle hidle hcol, hdone, hkey, herr]; rfl, hidle, hdone, herr⟩

end Sys2Proof.Machine

/-! PROOFS. The family 70_reset_and_hazards.md: reset, independence of the host, and a row line stuck active. -/

namespace Sys2Proof.Machine

/-! ### A row line stuck active -/

/-- A line stuck active in a run's first cycle is stuck active in each of its cycles (R147). -/
theorem stuckActive_runCycles {r : LineIdx} {n : Nat} {s t : State} (h : runCycles n s = .next t)
    (hr : s.stuckActive r) : t.stuckActive r := by
  induction n generalizing s with
  | zero =>
    cases h
    exact hr
  | succ n ih =>
    obtain ⟨u, hu, hrest⟩ := runCycles_succ_cases h
    exact ih hrest (stuckActive_step hu hr)

theorem runCycles_of_step {n : Nat} {s t u : State} (h : step s = .next t) (hu : runCycles n t = .next u) :
    runCycles (1 + n) s = .next u := by
  rw [Nat.add_comm, runCycles, h]
  exact hu

/-- With line `r` active the least active row is `r` or one below it. -/
theorem lowestSet_le_of_getLsbD {m : Lines} {r : LineIdx} (h : m.getLsbD r.toNat = true) :
    ∃ r', lowestSet m = some r' ∧ r'.toNat ≤ r.toNat := by
  obtain ⟨r', hr'⟩ | rfl := exists_lowestSet_or_eq_zero m
  · refine ⟨r', hr', Nat.le_of_not_lt fun hlt => ?_⟩
    rw [((lowestSet_eq_some_iff m r').mp hr').2 r hlt] at h
    cases h
  · simp at h

/-- `s` is the first cycle of a scan with row line `r` stuck active. -/
structure State.StartsStuckScan (r : LineIdx) (s : State) : Prop extends s.StartsScan where
  stuck : s.stuckActive r

/-- An accepted command starts a scan in which the line is still stuck. -/
theorem startsStuckScan_of_accept {s : State} {o : Op} {r : LineIdx} (hs : s.Inv) (hn : s.noReset)
    (hstuck : s.stuckActive r) (hf : s.block.fsm = .idle) (ho : s.startsNow = some o) :
    ∃ t, step s = .next t ∧ t.StartsStuckScan r ∧ t.params = s.params
      ∧ t.block = (s.block.accept o).rowSync s.rowN s.block := by
  obtain ⟨t, ht, hstart, hrest⟩ := startsScan_of_accept hs hn hf ho
  exact ⟨t, ht, ⟨hstart, stuckActive_step ht hstuck⟩, hrest⟩

/-- Column 0 hits: its sample is the level captured in cycle `SETTLE_CYCLES - 2`, where line `r` is active (R72, R147). -/
theorem stuckScan_hits_column_zero {s : State} {r : LineIdx} (hs : s.StartsStuckScan r) :
    ∃ u r', runCycles (s.params.settleCycles - 2) s = .next u ∧ lowestSet (activeRows u.rowN) = some r'
      ∧ r'.toNat ≤ r.toNat ∧ lowestSet (s.scanSample 0) = some r' := by
  obtain ⟨u, t, hu, ht, -, -, hs2⟩ := runCycles_sampling hs.inv hs.noReset hs.fsm hs.cnt
  have hactive : (activeRows u.rowN).getLsbD r.toNat = true := by
    rw [getLsbD_activeRows, stuckActive_rowN (stuckActive_runCycles hu hs.stuck)]
    rfl
  obtain ⟨r', hlow, hle⟩ := lowestSet_le_of_getLsbD hactive
  have hsample : s.scanSample 0 = activeRows t.block.s2 := scanSample_eq (by rwa [Nat.zero_mul, Nat.zero_add])
  exact ⟨u, r', hu, hlow, hle, by rw [hsample, hs2, hlow]⟩

/-! ### A hit in column 0, scan after scan -/

/-- A scan of the debounce FSM that hits in column 0 ends there and starts the next one in the release stage; in the press stage
it latches the key (R95, R96). -/
theorem runCycles_nextScan_of_hit_column_zero {s : State} {r : LineIdx} (hs : s.StartsScan) (hop : s.block.op = .wait)
    (hhit : lowestSet (s.scanSample 0) = some r) :
    ∃ t, runCycles (s.params.settleCycles + 1) s = .next t ∧ s.NextScan t ∧ t.block.wph = .release
      ∧ (s.block.wph = .press → t.block.prow = r ∧ t.block.pcol = 0) := by
  have hrun := runCycles_nextScan (j := 0)
    (P := fun b => b.wph = .release ∧ (s.block.wph = .press → b.prow = r ∧ b.pcol = 0)) hs (by omega) nofun
  rw [Nat.zero_add, Nat.one_mul] at hrun
  refine hrun fun t ht hf ha => ?_
  have hlow : lowestSet (activeRows t.block.s2) = some r := by rw [ha, hhit]
  have hopT : t.block.op = .wait := ht.scan.op.trans hop
  cases hw : s.block.wph with
  | press =>
    refine cycleGives_imp (pressScanWithKeyLatches t r ht.noReset.1 hf hopT (ht.scan.wph.trans hw) hlow) ?_
    rintro b ⟨hnext, hrelease, hrow, hcol, -⟩
    exact ⟨hnext, hrelease, fun _ => ⟨hrow, hcol.trans (BitVec.eq_of_toNat_eq ht.colIdx)⟩⟩
  | release =>
    refine cycleGives_imp (releaseScanWithKeyRepeats t ht.noReset.1 hf hopT (ht.scan.wph.trans hw)
      (activeRows_ne_zero_of_lowestSet hlow)) ?_
    rintro b ⟨hnext, hrelease, -⟩
    exact ⟨hnext, hrelease, nofun⟩

/-- The debounce FSM's scans with a stuck line follow each other without leaving column 0: by induction over the scans, each
cycle is in the phase of column 0 of the present one, or comes after it. -/
theorem after_stuckScan {r : LineIdx} (n : Nat) {s : State} (hs : s.StartsStuckScan r) (hop : s.block.op = .wait) :
    s.after n fun t => t.block.busy = true ∧ t.block.stDone = false ∧ t.block.colIdx = 0 := by
  induction n using Nat.strong_induction_on generalizing s with
  | _ n ih =>
    by_cases hn : n ≤ s.params.settleCycles
    · obtain ⟨t, ht, hphase, hfsm⟩ := runCycles_inScanPhase (scanPhaseStart_self hs.toStartsScan) hn
      have hbusy : t.block.fsm ≠ .idle := by rw [hfsm]; split_ifs <;> nofun
      exact ⟨t, ht, decide_eq_true hbusy, not_done_of_inScanPhase hphase hbusy, BitVec.eq_of_toNat_eq hphase.colIdx⟩
    · obtain ⟨-, r', -, -, -, hhit⟩ := stuckScan_hits_column_zero hs
      obtain ⟨u, hu, hnext, -⟩ := runCycles_nextScan_of_hit_column_zero hs.toStartsScan hop hhit
      obtain ⟨m, rfl⟩ := Nat.exists_eq_add_of_le (Nat.lt_of_not_le hn)
      obtain ⟨t, ht, hP⟩ :=
        ih m (by omega) ⟨hnext.toStartsScan, stuckActive_runCycles hu hs.stuck⟩ (hnext.op.trans hop)
      exact ⟨t, runCycles_add ht hu, hP⟩

/-! ### The host and the progress of a command -/

/-- The registers but for ERR after a cycle of a running command: reset values, or the FSM's step and the shift of `row_sync`,
whose inputs the host has no part in (R150). -/
theorem step_block_busy_but_err {s t : State} (h : step s = .next t) (hb : s.block.busy = true) :
    { t.block with stErr := false } = if s.rstN = true ∧ s.nextEnv.rstN = true
      then ({ s.block.fsmStep s.params s.block with stErr := false } : Block).rowSync s.rowN s.block
      else Block.reset := by
  obtain ⟨-, hrstN, -⟩ := step_agents h
  rw [← hrstN]
  split_ifs with hr
  · rw [step_block_busy h hr.1 hr.2 ((busy_iff _).mp hb)]
    rfl
  · rw [step_block_of_reset h (by simpa [imp_iff_not_or] using hr)]
    rfl

/-! ### The first command after reset -/

/-- The cycle after an acceptance reads BUSY in STATUS, and nothing else (R28, R110). -/
theorem status_accept (o : Op) (b : Block) (r : Lines) (pre : Block) : ((b.accept o).rowSync r pre).status = 0x01 := by
  have hrls : ((b.accept o).rowSync r pre).rls = false := by simp [Block.rls]
  have hbusy : ((b.accept o).rowSync r pre).busy = true := by simp [Block.busy]
  simp [Block.status, hrls, hbusy]

/-! ### The statements -/

/-- Settles O60: the line makes each scan hit in column 0. `SCAN_ONCE` completes with that hit; `WAIT_KEYPRESS` latches it and
then scans on. -/
theorem stuckActiveRow : Obligations.StuckActiveRow := by
  intro s r hs hn hstuck hf
  constructor
  · intro htr
    obtain ⟨t, ht, hstart, hparams, hb⟩ := startsStuckScan_of_accept hs hn hstuck hf (startsNow_scanOnce htr)
    obtain ⟨u, r', hu, hlow, hle, hhit⟩ := stuckScan_hits_column_zero hstart
    obtain ⟨v, hv, hidle, -, hdone, hkey, hres⟩ :=
      scanOnce_after_hit hstart.toStartsScan (c := 0) (by rw [hb]; rfl) nofun hhit
    rw [← hparams]
    refine ⟨u, r', runCycles_of_step ht hu, hlow, hle, after_of_step ht ⟨v, ?_, hidle, hdone, hkey, ?_⟩⟩
    · simpa using hv
    · rw [hres, resultWord_toNat]
      simp
  · intro htr
    obtain ⟨t, ht, hstart, hparams, hb⟩ := startsStuckScan_of_accept hs hn hstuck hf (startsNow_waitKeypress htr)
    have hop : t.block.op = .wait := by rw [hb]; rfl
    refine ⟨?_, fun n => after_succ ht (after_stuckScan n hstart hop)⟩
    obtain ⟨u, r', hu, hlow, hle, hhit⟩ := stuckScan_hits_column_zero hstart
    obtain ⟨v, hv, hnext, hrelease, hlatch⟩ := runCycles_nextScan_of_hit_column_zero hstart.toStartsScan hop hhit
    obtain ⟨hrow, hcol⟩ := hlatch (by rw [hb]; rfl)
    rw [← hparams]
    exact ⟨u, r', runCycles_of_step ht hu, hlow, hle,
      after_of_step ht ⟨v, hv, rls_of_release hnext.fsm (hnext.op.trans hop) hrelease, hrow, hcol⟩⟩

/-- Settles O9: a reset cycle leaves the reset registers, and so does every step into one. -/
theorem resetHoldsEveryElement : Obligations.ResetHoldsEveryElement := by
  constructor
  · intro s hr
    have hb := step_block_of_reset (step_reset hr) (.inl hr)
    exact ⟨_, step_reset hr, hb, by rw [hb]; rfl, resetCycle_params s⟩
  · intro s t h hr
    have hb := step_block_of_reset h (.inr hr)
    exact ⟨hb, by rw [hb]; rfl⟩

/-- Settles O47: both steps answer, and what they leave but for ERR is the same function of what the two states share. -/
theorem progressDoesNotDependOnTheHost : Obligations.ProgressDoesNotDependOnTheHost := by
  intro s host returned hb hf
  obtain ⟨t, ht⟩ := step_answers hf
  obtain ⟨t', ht'⟩ := step_answers (s := { s with host := host, returned := returned }) hf
  refine ⟨t, t', ht, ht', ?_⟩
  rw [step_block_busy_but_err ht hb, step_block_busy_but_err ht' hb]
  rfl

/-- Settles O10: the reset cycle leaves the reset registers, which are idle, so the next cycle accepts the command. -/
theorem firstTransactionAfterRelease : Obligations.FirstTransactionAfterRelease := by
  intro s w w' rest o hr hr' hh hw
  have hreset := step_block_of_reset (step_reset hr) (.inl hr)
  have hidle : (resetCycle s).block.fsm = .idle := by rw [hreset]; rfl
  have hlive : (resetCycle s).block.fsm ≠ .rsvd11 := by rw [hreset]; nofun
  have htr : (resetCycle s).transaction = some o.startInstr := by
    have hhost : (resetCycle s).host = .word w :: rest := by rw [resetCycle_host, hh]; rfl
    rw [transaction_word hhost, hw]
    cases o <;> rfl
  refine ⟨_, _, step_reset hr, hreset, step_startInstr hr' hlive htr, fun hr'' => ?_⟩
  rw [clockEdge_startCommand_of_idle o hidle hr'']
  exact ⟨status_accept .., rfl, rfl⟩

/-- Settles O39: the reset registers are legal, and their reads are literals; the board's parameters exceed their bounds by a
free number or by one. -/
theorem resetMeetsTheInvariant : Obligations.ResetMeetsTheInvariant := by
  refine ⟨fun s hp ⟨hb, _⟩ => ⟨⟨hp, ?_, fun _ => hb⟩, ?_⟩, ⟨rfl, rfl⟩, ?_⟩
  · rw [hb]
    exact reset_legal (settleCycles_pos hp)
  · rw [State.observe, hb, reset_status, List.drop_length]
    rfl
  · simp [State.reset, State.resetWith, Config.board, Params.wellFormed]

end Sys2Proof.Machine
